-- ==== Sys2Proof/Word.lean ====
section
/-! DEFINITION. The byte of a chain-link cell. Every other number of the part is a plain number (Nat, Int, Fin): only the
bytes of a cell are ever treated as bits. -/
namespace Sys2Proof

/-- One byte of a cell (11, section 11.1: bit 7 is the most significant). -/
abbrev Byte := BitVec 8

end Sys2Proof
end

