-- ==== Sys2Proof/Config.lean ====
section
/-! DEFINITION. The constants the spec fixes, each under the rule that states it, and the free values: what the spec
leaves open, as constants with no body, so that no proof can see what they are. -/
namespace Sys2Proof.Config

/-- R1: entries of the Channel Table. -/
abbrev channelCount : Nat := 128
/-- R76: loop records. -/
abbrev loopCount : Nat := 16
/-- R13: records the Miss List can hold. -/
abbrev missCapacity : Nat := 8
/-- R57: an ordinary alarm is appended only below this many records. -/
abbrev ordinaryAlarms : Nat := 31
/-- R54: records the Alarm Queue can hold. -/
abbrev alarmCapacity : Nat := 32
/-- R120: cells the north forward FIFO can hold. -/
abbrev northFifoCapacity : Nat := 32
/-- R123: the high-water mark of the north forward FIFO. -/
abbrev highWater : Nat := 24
/-- R126: cells the south pass-through FIFO can hold. -/
abbrev southFifoCapacity : Nat := 16
/-- R122: places of the response queue. -/
abbrev responsePlaces : Nat := 4
/-- R137: requests the request queue can hold. -/
abbrev requestCapacity : Nat := 4
/-- R107: consecutive good cells that bring a receiver to SYNC. -/
abbrev goodRunToSync : Nat := 8
/-- R108: consecutive bad arrivals that bring a receiver to HUNT. -/
abbrev badRunToHunt : Nat := 4
/-- R157: ticks of the proposal timer. -/
abbrev proposalTicks : Nat := 100
/-- R145: IDENT, hexadecimal 4128. -/
abbrev ident : Nat := 0x4128
/-- R145: STEPPING. -/
abbrev stepping : Nat := 1
/-- R177, R182: REFCLK periods (25 MHz) between two tick boundaries (10 ms). -/
abbrev refclkPerTick : Nat := 250000
/-- R179: a RESTART# assertion of this many ns (1 µs) always makes a warm reset. -/
abbrev restartNs : Nat := 1000

/-- FREE VALUE (R179, log 6): whether a RESTART# assertion shorter than 1 µs makes a warm reset; the argument is the
number of free values drawn before it. -/
opaque shortRestartActs : Nat → Bool

/-- FREE VALUE (R177, log 5): the rank by which the timers that expire at one tick boundary are ordered; the argument is
the number of free values drawn before it. -/
opaque expiryRank : Nat → Nat

end Sys2Proof.Config
end

