-- ==== Sys2Proof/Syntax.lean ====
section
/-! DEFINITION. The commands of the block: one constructor of `Instr` for each row of spec/opcode_table.json, and the
types of their operands. -/
namespace Sys2Proof

/-- A port of the part (section 0.2). As an alarm SUBJECT, north is 0 and south is 1 (R55). -/
inductive Port where
  | north
  | south
deriving DecidableEq, Repr

/-- A cell: eight bytes, numbered in the order they travel (R102). -/
structure Cell where
  b0 : Byte
  b1 : Byte
  b2 : Byte
  b3 : Byte
  b4 : Byte
  b5 : Byte
  b6 : Byte
  b7 : Byte
deriving DecidableEq, Repr

/-- What the line delivers in one cell period: a cell assembled whole, or a void period (R105). -/
inductive Arrival where
  | cell (c : Cell)
  | void
deriving DecidableEq, Repr

/-- The happenings of cold reset's two sources (R178): the RESET# pin and power-up. -/
inductive ColdEdge where
  /-- RESET# is asserted (goes low). -/
  | resetFalls
  /-- RESET# is released (goes high). -/
  | resetRises
  /-- Power comes up: the part is held until supply and reference clock are good. -/
  | powerUpBegins
  /-- Power-up ends. -/
  | powerUpEnds
deriving DecidableEq, Repr

/-- The happenings of the RESTART# pin (R179). -/
inductive RestartEdge where
  /-- The pin goes low and stays low for `heldLowNs` ns. -/
  | falls (heldLowNs : Nat)
  /-- The pin goes high, so that it can be asserted again. -/
  | rises
deriving DecidableEq, Repr

/-- The commands, one constructor for each row of spec/opcode_table.json, in the table's order. The takings of the Agent
(`read` to `freeze`) carry no operand: they take the oldest request of the request queue, whose cell holds their operands
(R138, log 1). -/
inductive Instr where
  | coldReset (edge : ColdEdge)
  | warmReset (edge : RestartEdge)
  | arrival (port : Port) (a : Arrival)
  | northSlot
  | southSlot
  | deadlineExpiry (n : Fin Config.channelCount)
  | forwardRefreshExpiry (n : Fin Config.channelCount)
  | resendTimerExpiry (seq : Nat)
  | step (k : Fin Config.loopCount)
  | stopTimerExpiry (k : Fin Config.loopCount)
  | refreshTimerExpiry (k : Fin Config.loopCount)
  | proposalTimerExpiry
  | sessionTimerExpiry
  | read
  | unknownRequest
  | openPhase1
  | openPhase2
  | close
  | editLoad
  | editSet
  | commit
  | endOfScan
  | removeChannel
  | removeLoop
  | setPart
  | ackAlarm
  | ackChannel
  | manual
  | manualRelease
  | clearMiss
  | clearPart
  | restart
  | freeze
deriving DecidableEq, Repr

end Sys2Proof
end

