-- ==== Sys2Proof/WellFormed.lean ====
section
/-! DEFINITION. Which commands are well formed. Entry and loop numbers are bounded by their types; what is left to check
is the SEQ of a resend expiry and the length of a RESTART# assertion. An ill-formed command still has a meaning: a SEQ
above 255 is held by no record, and a pulse of no length is shorter than 1 µs. -/
namespace Sys2Proof

/-- R54: a record's SEQ lies in 0–255. -/
def seqInRange (seq : Nat) : Bool := seq < 256

/-- R179: an assertion of RESTART# holds the pin low for some time. -/
def pulseHasLength : RestartEdge → Bool
  | .falls ns => 0 < ns
  | .rises => true

/-- The checks of a command. -/
def Instr.wellFormed : Instr → Bool
  | .resendTimerExpiry seq => seqInRange seq
  | .warmReset edge => pulseHasLength edge
  | .coldReset _ | .arrival _ _ | .northSlot | .southSlot | .deadlineExpiry _ | .forwardRefreshExpiry _
  | .step _ | .stopTimerExpiry _ | .refreshTimerExpiry _ | .proposalTimerExpiry | .sessionTimerExpiry
  | .read | .unknownRequest | .openPhase1 | .openPhase2 | .close | .editLoad | .editSet | .commit | .endOfScan
  | .removeChannel | .removeLoop | .setPart | .ackAlarm | .ackChannel | .manual | .manualRelease
  | .clearMiss | .clearPart | .restart | .freeze => true

end Sys2Proof
end

