-- ==== Sys2Proof/Decode.lean ====
section
/-! DEFINITION. The command a word spells by the bits of spec/opcode_table.json. The table gives no row any bits
(every row's "fields" is empty and none has a pattern), so no word spells a command. The management requests that cells
carry are read in Machine/Operands.lean, where the part itself reads them (R183). -/
namespace Sys2Proof

/-- The command spelled by the word `w` of `nbits` bits: none, since the table gives no row any bits. -/
def decodeTableWord (_nbits _w : Nat) : Option Instr := none

end Sys2Proof
end

