-- ==== Sys2Proof/Machine/State.lean ====
section
/-! DEFINITION. The state of the part as plain data, its value right after cold reset, and the reasons a step can stop.
Numbers the part compares, counts or scales are Int and Nat; only the bytes of held cells are bit vectors. -/
namespace Sys2Proof.Machine

/-- The part stops with no fault: every rule of the spec goes on (INVENTORY, Faults). No constructor, so none is raised. -/
inductive Fault
deriving DecidableEq, Repr

/-- Why a command is refused. -/
inductive Refusal where
  /-- Raised by an arm of `exec` for a command that has no meaning yet; safe, since the machine stops. No arm raises it. -/
  | notModelled (mnemonic : String)
deriving DecidableEq, Repr

/-- The synchronisation state of a receiver (R106). -/
inductive LinkState where
  | hunt
  | sync
deriving DecidableEq, Repr

/-- A receiver (R106). -/
structure Receiver where
  link    : LinkState
  goodRun : Nat
  badRun  : Nat
  crc     : Nat
deriving DecidableEq, Repr

/-- The conditioner mode (R8). -/
inductive Mode where
  | pass
  | active
deriving DecidableEq, Repr

/-- The miss policy (R12). -/
inductive MissPolicy where
  | forward
  | drop
deriving DecidableEq, Repr

/-- The six part settings (R150). -/
structure Settings where
  mode           : Mode
  missPolicy     : MissPolicy
  resend         : Nat
  retry          : Nat
  sessionTimeout : Nat
  alertLink      : Bool
deriving DecidableEq, Repr

/-- A key: the pair (NODE, POINT) (R5). -/
structure Key where
  node  : Nat
  point : Nat
deriving DecidableEq, Repr

/-- MODE of a channel (R1). -/
inductive TripMode where
  | compare
  | latch
deriving DecidableEq, Repr

/-- POLICY of a channel (R1, R20). -/
inductive Policy where
  | raw
  | conditioned
  | onChange
  | suppress
deriving DecidableEq, Repr

/-- The static fields of a channel entry that the edit buffer can hold (R1, R162). -/
structure ChannelConfig where
  node     : Nat
  point    : Nat
  offset   : Int
  gain     : Int
  high     : Int
  low      : Int
  hyst     : Nat
  trips    : Nat
  clears   : Nat
  mode     : TripMode
  policy   : Policy
  deadband : Nat
  refresh  : Nat
  silence  : Nat
  alert    : Bool
deriving DecidableEq, Repr

/-- The defaults of R1. -/
def ChannelConfig.default : ChannelConfig :=
  { node := 0, point := 0, offset := 0, gain := 256, high := 32767, low := -32768, hyst := 0, trips := 1, clears := 1,
    mode := .compare, policy := .raw, deadband := 0, refresh := 0, silence := 0, alert := false }

/-- STATE of a channel entry (R32). -/
inductive ChannelState where
  | unseen
  | normal
  | highPend
  | high
  | lowPend
  | low
  | stale
deriving DecidableEq, Repr

/-- The forward refresh timer (R24). A running timer holds the boundaries still to come. -/
inductive ForwardTimer where
  | idle
  | running (ticks : Nat)
  | expired
deriving DecidableEq, Repr

/-- The dynamic part of a channel entry (R3) but its deadline. -/
structure ChannelDynamic where
  state    : ChannelState
  run      : Nat
  last     : Option Int
  lastRaw  : Option Int
  sent     : Option Int
  acked    : Bool
  clearMet : Bool
  tripSeq  : Option Nat
  forward  : ForwardTimer
deriving DecidableEq, Repr

/-- What *clearing* leaves (R3). -/
def ChannelDynamic.cleared : ChannelDynamic :=
  { state := .unseen, run := 0, last := none, lastRaw := none, sent := none, acked := false, clearMet := false,
    tripSeq := none, forward := .idle }

/-- A channel entry (R1, R3, R4). A timer that runs holds the boundaries still to come; a stopped one is none. -/
structure Channel where
  valid    : Bool
  cfg      : ChannelConfig
  revision : Nat
  dyn      : ChannelDynamic
  deadline : Option Nat
deriving DecidableEq, Repr

/-- A channel entry after cold reset (R1, R3, R4). -/
def Channel.coldReset : Channel :=
  { valid := false, cfg := .default, revision := 0, dyn := .cleared, deadline := none }

/-- A record of the Miss List (R13). -/
structure MissRecord where
  key  : Key
  hits : Nat
deriving DecidableEq, Repr

/-- KIND of an alarm record (R54). -/
inductive AlarmKind where
  | high
  | low
  | cleared
  | stale
  | resumed
  | loopLimit
  | link
  | lost
deriving DecidableEq, Repr

/-- SUBJECT of an alarm record: subjects of different kinds are distinct (R55). -/
inductive Subject where
  | channel (n : Fin Config.channelCount)
  | loop (k : Fin Config.loopCount)
  | port (p : Port)
  | noSubject
deriving DecidableEq, Repr

/-- PHASE of an alarm record (R54). -/
inductive Phase where
  | new
  | sent
deriving DecidableEq, Repr

/-- The resend timer of an alarm record (R54). A running timer holds the boundaries still to come. -/
inductive ResendTimer where
  | stopped
  | running (ticks : Nat)
  | due
deriving DecidableEq, Repr

/-- An alarm record (R54). -/
structure AlarmRecord where
  seq      : Nat
  kind     : AlarmKind
  subject  : Subject
  value    : Int
  alert    : Bool
  phase    : Phase
  attempts : Nat
  resend   : ResendTimer
deriving DecidableEq, Repr

/-- SENSE of a loop (R76). -/
inductive Sense where
  | rising
  | falling
deriving DecidableEq, Repr

/-- The static fields of a loop record that the edit buffer can hold (R76, R162). -/
structure LoopConfig where
  enable       : Bool
  source       : Fin Config.channelCount
  actNode      : Nat
  actPoint     : Nat
  sense        : Sense
  target       : Int
  tolerance    : Nat
  step         : Nat
  upInterval   : Nat
  downInterval : Nat
  startDuty    : Nat
  stopDuty     : Nat
  maxDuty      : Nat
  failsafeDuty : Nat
  stopTime     : Nat
  refresh      : Nat
  satLimit     : Nat
deriving DecidableEq, Repr

/-- The defaults of R76. -/
def LoopConfig.default : LoopConfig :=
  { enable := false, source := 0, actNode := 0, actPoint := 0, sense := .rising, target := 0, tolerance := 0, step := 1,
    upInterval := 10, downInterval := 10, startDuty := 128, stopDuty := 64, maxDuty := 255, failsafeDuty := 255,
    stopTime := 100, refresh := 0, satLimit := 20 }

/-- STATE of a loop (R78). -/
inductive LoopState where
  | disabled
  | held
  | stopped
  | starting
  | running
  | stopWait
  | manual
deriving DecidableEq, Repr

/-- A loop record (R76, R78). A timer that runs holds the boundaries still to come; a stopped one is none. -/
structure Loop where
  cfg          : LoopConfig
  revision     : Nat
  state        : LoopState
  drive        : Nat
  satCount     : Nat
  guardCount   : Nat
  pending      : Bool
  stepTimer    : Option Nat
  stopTimer    : Option Nat
  refreshTimer : Option Nat
deriving DecidableEq, Repr

/-- A loop record after cold reset (R76, R100). -/
def Loop.coldReset : Loop :=
  { cfg := .default, revision := 0, state := .disabled, drive := 0, satCount := 0, guardCount := 0, pending := false,
    stepTimer := none, stopTimer := none, refreshTimer := none }

/-- The claimants of a south slot (R127). -/
inductive Claimant where
  | passThrough
  | loops
deriving DecidableEq, Repr

/-- The Agent's state (section 8.3); COMMITTING holds the COMMIT in flight (R139). -/
inductive AgentState where
  | idle
  | committing (request : Cell)
deriving DecidableEq, Repr

/-- The session state (R156). -/
inductive SessionState where
  | closed
  | proposed
  | opened
deriving DecidableEq, Repr

/-- The edit buffer (R162). -/
inductive EditBuffer where
  | empty
  | channel (cfg : ChannelConfig)
  | loop (cfg : LoopConfig)
deriving DecidableEq, Repr

/-- The whole state of the part. INVENTORY.md lists each field with its rule. -/
structure State where
  resetLow      : Bool
  poweringUp    : Bool
  restartLow    : Bool
  alertPin      : Bool
  divider       : Nat
  north         : Receiver
  south         : Receiver
  settings      : Settings
  channels      : Vector Channel Config.channelCount
  missList      : List MissRecord
  misses        : Nat
  alarms        : List AlarmRecord
  nextSeq       : Nat
  abandoned     : Nat
  loops         : Vector Loop Config.loopCount
  northFifo     : List Cell
  southFifo     : List Cell
  responses     : List Cell
  reserved      : Nat
  lastWinner    : Claimant
  lastServed    : Fin Config.loopCount
  northOverflow : Nat
  southOverflow : Nat
  requests      : List Cell
  reqDiscards   : Nat
  agent         : AgentState
  session       : SessionState
  openCounter   : Nat
  proposal      : Option Nat
  proposalTimer : Option Nat
  sessionTimer  : Option Nat
  editBuffer    : EditBuffer
  frozen        : Bool
  northSent     : Option Cell
  southSent     : Option Cell
  freeDraws     : Nat
  pending       : List Instr
deriving DecidableEq, Repr

/-- A receiver after cold reset (R106). -/
def Receiver.coldReset : Receiver := { link := .hunt, goodRun := 0, badRun := 0, crc := 0 }

/-- The settings after cold reset (R150). -/
def Settings.default : Settings :=
  { mode := .pass, missPolicy := .forward, resend := 50, retry := 5, sessionTimeout := 300, alertLink := false }

/-- The part when cold reset has ended (R178): each field as its chapter gives it. The levels of the input pins and the
model's own fields are design choices (log 10, 11, 12). -/
def State.reset : State :=
  { resetLow := false, poweringUp := false, restartLow := false, alertPin := false, divider := 0,
    north := .coldReset, south := .coldReset, settings := .default,
    channels := Vector.replicate Config.channelCount .coldReset, missList := [], misses := 0,
    alarms := [], nextSeq := 0, abandoned := 0,
    loops := Vector.replicate Config.loopCount .coldReset,
    northFifo := [], southFifo := [], responses := [], reserved := 0, lastWinner := .passThrough, lastServed := 15,
    northOverflow := 0, southOverflow := 0, requests := [], reqDiscards := 0, agent := .idle,
    session := .closed, openCounter := 0, proposal := none, proposalTimer := none, sessionTimer := none,
    editBuffer := .empty, frozen := false, northSent := none, southSent := none, freeDraws := 0, pending := [] }

end Sys2Proof.Machine
end

