-- ==== Sys2Proof/Machine/Operands.lean ====
section
/-! DEFINITION. Cells: the check code, the fields at their byte and bit positions, the cells the part makes, and the
fields of a management request (06 The Chain Link, 11 Cell and Field Layouts). -/
namespace Sys2Proof

/-! ### The check code (R104) -/

/-- One left shift of the check register: if the bit shifted out was 1, combined with 0x07 (R104). -/
def crcShift (r : Byte) : Byte := if r.msb then (r <<< 1) ^^^ 0x07#8 else r <<< 1

/-- A byte taken into the check register: combined by exclusive-or, then eight shifts (R104). -/
def crcByte (r b : Byte) : Byte := Nat.repeat crcShift 8 (r ^^^ b)

/-- The CRC-8 of R104 over the bytes in order, the register starting at 0xFF. -/
def crc8 (bytes : List Byte) : Byte := bytes.foldl crcByte 0xFF#8

/-- The code of R104 over bytes 0 to 6 of a cell. -/
def Cell.checkCode (c : Cell) : Byte := crc8 [c.b0, c.b1, c.b2, c.b3, c.b4, c.b5, c.b6]

/-- A cell is *good* when its CHECK equals the code computed over its bytes 0 to 6 (R104). -/
def Cell.good (c : Cell) : Bool := c.b7 == c.checkCode

/-- The cell with its CHECK computed afresh (R104). -/
def Cell.sealed (c : Cell) : Cell := { c with b7 := c.checkCode }

/-! ### Fields (R102, R183) -/

/-- KIND: the upper four bits of byte 0. -/
def Cell.kind (c : Cell) : Nat := c.b0.toNat / 16

/-- HOP: the lower four bits of byte 0. -/
def Cell.hop (c : Cell) : Nat := c.b0.toNat % 16

/-- The cell with another HOP; KIND is kept (R183). -/
def Cell.withHop (c : Cell) (hop : Nat) : Cell := { c with b0 := BitVec.ofNat 8 (c.kind * 16 + hop) }

/-- The key of a SAMPLE or COMMAND cell: NODE in the low six bits of byte 1, POINT in the top three of byte 2 (R6, R130). -/
def Cell.key (c : Cell) : Machine.Key := { node := c.b1.toNat % 64, point := c.b2.toNat / 32 }

/-- OP: the low five bits of byte 2. -/
def Cell.op (c : Cell) : Nat := c.b2.toNat % 32

/-- SPACE of a management cell: the top three bits of byte 2. -/
def Cell.space (c : Cell) : Nat := c.b2.toNat / 32

/-- VALUE: two's complement of 16 bits, high byte in byte 3 (R183). -/
def Cell.value (c : Cell) : Int := (c.b3 ++ c.b4).toInt

/-- The high byte of VALUE (R183); a count above 32767 takes the same 16 bits (R136). -/
def valueHigh (v : Int) : Byte := (BitVec.ofInt 16 v).extractLsb' 8 8

/-- The low byte of VALUE (R183). -/
def valueLow (v : Int) : Byte := (BitVec.ofInt 16 v).extractLsb' 0 8

/-- The cell with another VALUE. -/
def Cell.withValue (c : Cell) (v : Int) : Cell := { c with b3 := valueHigh v, b4 := valueLow v }

/-- A cell the part makes, from its fields, with its CHECK (R104, R183). `top` is POINT or SPACE. -/
def makeCell (kind byte1 top op : Nat) (value : Int) (tag aux : Nat) : Cell :=
  Cell.sealed
    { b0 := BitVec.ofNat 8 (kind * 16), b1 := BitVec.ofNat 8 byte1, b2 := BitVec.ofNat 8 (top * 32 + op),
      b3 := valueHigh value, b4 := valueLow value, b5 := BitVec.ofNat 8 tag, b6 := BitVec.ofNat 8 aux, b7 := 0#8 }

/-- The FILL cell of either transmitter: bytes 0 to 6 all 0 (R104). -/
def fillCell : Cell := makeCell 0 0 0 0 0 0 0

/-- HOP at relay north: increased by 1 with CHECK computed afresh, unless it is 15 already (R114). -/
def relayNorth (c : Cell) : Cell :=
  if c.hop = 15 then c else (c.withHop (c.hop + 1)).sealed

/-- HOP at relay south of an MREQ: decreased by 1 with CHECK computed afresh (R116). -/
def relaySouth (c : Cell) : Cell := (c.withHop (c.hop - 1)).sealed

end Sys2Proof

namespace Sys2Proof.Machine

/-! ### Requests (R135, R184) -/

/-- The spaces (R135). 6 and 7 name none. -/
inductive Space where
  | channel
  | loop
  | edit
  | part
  | miss
  | alarm
deriving DecidableEq, Repr

/-- The space a SPACE number names (R135, R184). -/
def spaceOfNumber : Nat → Option Space
  | 0 => some .channel
  | 1 => some .loop
  | 2 => some .edit
  | 3 => some .part
  | 4 => some .miss
  | 5 => some .alarm
  | _ => none

/-- The fields the Agent reads of a request cell (R135). -/
structure Request where
  op    : Nat
  space : Option Space
  entry : Nat
  aux   : Nat
  value : Int
deriving DecidableEq, Repr

/-- The request in a request cell (R135, R183). -/
def Request.ofCell (c : Cell) : Request :=
  { op := c.op, space := spaceOfNumber (c.space), entry := c.b1.toNat, aux := c.b6.toNat, value := c.value }

/-- The channel entry an ENTRY number names: 0–127. -/
def channelOfNat (n : Nat) : Option (Fin Config.channelCount) := if h : n < Config.channelCount then some ⟨n, h⟩ else none

/-- The loop an ENTRY number names: 0–15. -/
def loopOfNat (n : Nat) : Option (Fin Config.loopCount) := if h : n < Config.loopCount then some ⟨n, h⟩ else none

/-! ### Responses (R136, R141) -/

/-- The statuses (R141). -/
inductive Status where
  | ok
  | noSession
  | busy
  | badSpace
  | badEntry
  | badField
  | badValue
  | readOnly
  | emptyEdit
  | wrongSpace
  | invalid
  | duplicate
  | inUse
  | frozen
  | notFound
  | absent
  | badPhase
  | unknownRequest
deriving DecidableEq, Repr

/-- The status codes (11, section 11.3). -/
def Status.code : Status → Nat
  | .ok => 0
  | .noSession => 1
  | .busy => 2
  | .badSpace => 3
  | .badEntry => 4
  | .badField => 5
  | .badValue => 6
  | .readOnly => 7
  | .emptyEdit => 8
  | .wrongSpace => 9
  | .invalid => 10
  | .duplicate => 11
  | .inUse => 12
  | .frozen => 13
  | .notFound => 14
  | .absent => 15
  | .badPhase => 16
  | .unknownRequest => 17

/-- What a request's rule answers: a status, the VALUE where the rule gives one and the AUX where a check number replaces
it (R136). -/
structure Reply where
  status : Status
  value  : Option Int
  aux    : Option Nat
deriving DecidableEq, Repr

/-- A status alone: VALUE and AUX are the request's (R136). -/
def Reply.plain (st : Status) : Reply := { status := st, value := none, aux := none }

/-- OK with a result in VALUE. -/
def Reply.result (v : Int) : Reply := { status := .ok, value := some v, aux := none }

/-- A refusal with a VALUE (DUPLICATE, IN_USE). -/
def Reply.naming (st : Status) (v : Int) : Reply := { status := st, value := some v, aux := none }

/-- INVALID, with the number of the failed check in AUX. -/
def Reply.failedCheck (check : Nat) : Reply := { status := .invalid, value := none, aux := some check }

/-- The response cell to a request cell (R136): KIND MRSP, HOP 0, ENTRY, SPACE and TAG echoed, the status in OP. -/
def responseCell (c : Cell) (r : Reply) : Cell :=
  makeCell 4 c.b1.toNat (c.space) r.status.code (r.value.getD (c.value)) c.b5.toNat (r.aux.getD c.b6.toNat)

end Sys2Proof.Machine
end

