-- ==== Sys2Proof/Machine/Flags.lean ====
section
/-! DEFINITION. The numeric codes of states, kinds and yes/no results (11, section 11.3), and the two flags the part
computes from its state: the ALERT# pin and the holding of cold reset. -/
namespace Sys2Proof.Machine

/-- A yes/no result: no 0, yes 1 (R136). -/
def yesNo (b : Bool) : Nat := if b then 1 else 0

/-- The codes of the channel states. -/
def ChannelState.code : ChannelState → Nat
  | .unseen => 0
  | .normal => 1
  | .highPend => 2
  | .high => 3
  | .lowPend => 4
  | .low => 5
  | .stale => 6

/-- The codes of the loop states. -/
def LoopState.code : LoopState → Nat
  | .disabled => 0
  | .held => 1
  | .stopped => 2
  | .starting => 3
  | .running => 4
  | .stopWait => 5
  | .manual => 6

/-- The codes of the alarm kinds. -/
def AlarmKind.code : AlarmKind → Nat
  | .high => 1
  | .low => 2
  | .cleared => 3
  | .stale => 4
  | .resumed => 5
  | .loopLimit => 6
  | .link => 7
  | .lost => 8

/-- The codes of PHASE. -/
def Phase.code : Phase → Nat
  | .new => 0
  | .sent => 1

/-- The codes of a channel's MODE. -/
def TripMode.code : TripMode → Nat
  | .compare => 0
  | .latch => 1

/-- The codes of POLICY. -/
def Policy.code : Policy → Nat
  | .raw => 0
  | .conditioned => 1
  | .onChange => 2
  | .suppress => 3

/-- The codes of SENSE. -/
def Sense.code : Sense → Nat
  | .rising => 0
  | .falling => 1

/-- The codes of the conditioner mode. -/
def Mode.code : Mode → Nat
  | .pass => 0
  | .active => 1

/-- The codes of the miss policy. -/
def MissPolicy.code : MissPolicy → Nat
  | .forward => 0
  | .drop => 1

/-- The codes of the session state. -/
def SessionState.code : SessionState → Nat
  | .closed => 0
  | .proposed => 1
  | .opened => 2

/-- The codes of a receiver's state. -/
def LinkState.code : LinkState → Nat
  | .hunt => 0
  | .sync => 1

/-- The number of a SUBJECT; the LOST record has none (R55). -/
def Subject.number : Subject → Option Nat
  | .channel n => some n
  | .loop k => some k
  | .port .north => some 0
  | .port .south => some 1
  | .noSubject => none

/-- ALERT# is asserted while at least one record held has ALERT yes (R72). -/
def alertOf (alarms : List AlarmRecord) : Bool := alarms.any (fun r => r.alert)

/-- Cold reset is held while RESET# is low or power-up lasts (R178). -/
def State.coldHeld (s : State) : Bool := s.resetLow || s.poweringUp

/-- The automatic states of a loop (R78). -/
def LoopState.automatic : LoopState → Bool
  | .stopped | .starting | .running | .stopWait => true
  | .disabled | .held | .manual => false

/-- The states in which the actuator guard protects a loop's actuator: neither DISABLED nor MANUAL (R130). -/
def LoopState.guarded : LoopState → Bool
  | .held | .stopped | .starting | .running | .stopWait => true
  | .disabled | .manual => false

end Sys2Proof.Machine
end

