-- ==== Sys2Proof/Machine/Ops.lean ====
section
/-! DEFINITION. The operations that the happenings share: counters and timers, access to the tables, the Alarm Queue's
admission, removal and withdrawal, the FIFOs and the response queue. -/
namespace Sys2Proof.Machine

/-! ### Counters and timers -/

/-- A 16-bit counter one further, stopping at 65535 (section 0.7). -/
def bump16 (n : Nat) : Nat := min (n + 1) 65535

/-- A counter one further, stopping at 255 (R14, R98). -/
def bump8 (n : Nat) : Nat := min (n + 1) 255

/-- A number from 0 to 255 one further, going from 255 to 0 (R17, R59). -/
def wrap8 (n : Nat) : Nat := (n + 1) % 256

/-- A timer started with a setting of which 0 means that no timer runs (R4, R94). -/
def startUnlessZero (ticks : Nat) : Option Nat := if 0 < ticks then some ticks else none

/-- A timer that runs only while the conditioner mode is ACTIVE (R81, R87, R97). -/
def startInActive (mode : Mode) (ticks : Nat) : Option Nat :=
  match mode with
  | .active => some ticks
  | .pass => none

/-- Whether a timer has reached its count: a running timer holds the boundaries still to come (R177). -/
def reached : Option Nat → Bool
  | some ticks => ticks == 0
  | none => false

/-- Whether a forward refresh timer has reached its count (R24, R177). -/
def ForwardTimer.reached : ForwardTimer → Bool
  | .running ticks => ticks == 0
  | .idle | .expired => false

/-- Whether a record's resend timer has reached its count (R54, R177). -/
def AlarmRecord.resendReached (r : AlarmRecord) : Bool :=
  match r.resend with
  | .running ticks => ticks == 0
  | .stopped | .due => false

/-- The deadline started where it runs: in ACTIVE mode with SILENCE above 0; stopped otherwise (R4). -/
def deadlineStart (mode : Mode) (cfg : ChannelConfig) : Option Nat :=
  match mode with
  | .active => startUnlessZero cfg.silence
  | .pass => none

/-! ### The tables -/

/-- Every record of a table changed by one function of the record. -/
def mapTable {α β : Type} {n : Nat} (f : α → β) (v : Vector α n) : Vector β n := ⟨(v.toList.map f).toArray, by simp⟩

/-- The entry after a change by `f`. -/
def State.updateChannel (s : State) (n : Fin Config.channelCount) (f : Channel → Channel) : State :=
  { s with channels := s.channels.set n (f s.channels[n]) }

/-- The part after a change of loop `k` by `f`. -/
def State.updateLoop (s : State) (k : Fin Config.loopCount) (f : Loop → Loop) : State :=
  { s with loops := s.loops.set k (f s.loops[k]) }

/-- Every entry changed by `f`. -/
def State.mapChannels (s : State) (f : Channel → Channel) : State := { s with channels := mapTable f s.channels }

/-- Every loop changed by `f`. -/
def State.mapLoops (s : State) (f : Loop → Loop) : State := { s with loops := mapTable f s.loops }

/-- The lowest-numbered entry that `p` holds of. -/
def State.findChannel (s : State) (p : Fin Config.channelCount → Channel → Bool) : Option (Fin Config.channelCount) :=
  (List.finRange Config.channelCount).find? (fun n => p n s.channels[n])

/-- The lowest-numbered loop that `p` holds of. -/
def State.findLoop (s : State) (p : Fin Config.loopCount → Loop → Bool) : Option (Fin Config.loopCount) :=
  (List.finRange Config.loopCount).find? (fun k => p k s.loops[k])

/-- The key of an entry (R5). -/
def ChannelConfig.key (cfg : ChannelConfig) : Key := { node := cfg.node, point := cfg.point }

/-- The actuator key of a loop (R77). -/
def LoopConfig.actKey (cfg : LoopConfig) : Key := { node := cfg.actNode, point := cfg.actPoint }

/-- The lowest-numbered loop that is not in DISABLED and names entry `n` as SOURCE (R167, R175). -/
def State.controllingLoop (s : State) (n : Fin Config.channelCount) : Option (Fin Config.loopCount) :=
  s.findLoop (fun _ l => decide (l.state ≠ .disabled) && l.cfg.source == n)

/-- *Clearing* the dynamic part of an entry (R3). -/
def Channel.clear (e : Channel) : Channel := { e with dyn := .cleared }

/-- The receiver of a port. -/
def State.receiver (s : State) : Port → Receiver
  | .north => s.north
  | .south => s.south

/-- The part with another receiver at a port. -/
def State.withReceiver (s : State) (p : Port) (r : Receiver) : State :=
  match p with
  | .north => { s with north := r }
  | .south => { s with south := r }

/-! ### The Alarm Queue -/

/-- The queue replaced, with ALERT# following it in the same happening (R72). -/
def State.withAlarms (s : State) (q : List AlarmRecord) : State := { s with alarms := q, alertPin := alertOf q }

/-- What a raise hands the queue: KIND, SUBJECT, VALUE and the alert attribute (section 4.2). -/
structure Alarm where
  kind    : AlarmKind
  subject : Subject
  value   : Int
  alert   : Bool
deriving DecidableEq, Repr

/-- How the queue admitted an alarm (section 4.2). -/
inductive Admission where
  | appended (seq : Nat)
  | coalesced (seq : Nat)
  | lost
deriving DecidableEq, Repr

/-- TRIP_SEQ from the admission outcome (R34). -/
def Admission.seq : Admission → Option Nat
  | .appended seq => some seq
  | .coalesced seq => some seq
  | .lost => none

/-- The first number from `candidate` on that no record holds as its SEQ, going from 255 to 0; `fuel` bounds the search
(R59). -/
def freeSeq (q : List AlarmRecord) : (fuel candidate : Nat) → Nat
  | 0, candidate => candidate
  | fuel + 1, candidate => if q.any (fun r => r.seq == candidate) then freeSeq q fuel (wrap8 candidate) else candidate

/-- The SEQ the next appended record takes (R59). -/
def State.takeSeq (s : State) : Nat := freeSeq s.alarms 256 s.nextSeq

/-- Whether a record absorbs an alarm: the same KIND, NEW and never announced (R56). -/
def AlarmRecord.absorbs (r : AlarmRecord) (a : Alarm) : Bool :=
  r.kind == a.kind && r.phase == .new && r.attempts == 0

/-- A record that has absorbed an alarm (R56). -/
def AlarmRecord.absorb (r : AlarmRecord) (a : Alarm) : AlarmRecord :=
  { r with value := a.value, alert := r.alert || a.alert }

/-- Coalescing, over the records youngest first: the youngest record of the alarm's subject absorbs it, or the alarm is
not coalesced (R56). Answers the records and the SEQ of the one that absorbed it. -/
def coalesce (a : Alarm) : (youngestFirst : List AlarmRecord) → Option (List AlarmRecord × Nat)
  | [] => none
  | r :: older =>
    if r.subject = a.subject then
      if r.absorbs a then some (r.absorb a :: older, r.seq) else none
    else
      match coalesce a older with
      | some (q, seq) => some (r :: q, seq)
      | none => none

/-- A record as it is appended (R57, R58). -/
def AlarmRecord.fresh (seq : Nat) (a : Alarm) : AlarmRecord :=
  { seq := seq, kind := a.kind, subject := a.subject, value := a.value, alert := a.alert, phase := .new, attempts := 0,
    resend := .stopped }

/-- The part with a record appended after the youngest, under a SEQ taken by R59. -/
def State.appendAlarm (s : State) (a : Alarm) : State :=
  { s.withAlarms (s.alarms ++ [AlarmRecord.fresh s.takeSeq a]) with nextSeq := wrap8 s.takeSeq }

/-- The LOST record with one more alarm counted (R58). -/
def AlarmRecord.countLost (r : AlarmRecord) (alert : Bool) : AlarmRecord :=
  let grown := { r with value := min (r.value + 1) 32767, alert := r.alert || alert }
  match r.phase with
  | .sent => { grown with phase := .new, attempts := 0, resend := .stopped }
  | .new => grown

/-- A lost alarm counted: in the LOST record held, or in a new one (R58). -/
def State.loseAlarm (s : State) (a : Alarm) : State :=
  if s.alarms.any (fun r => r.kind == .lost) then
    s.withAlarms (s.alarms.map (fun r => if r.kind = .lost then r.countLost a.alert else r))
  else
    s.appendAlarm { kind := .lost, subject := .noSubject, value := 1, alert := a.alert }

/-- Admission of an alarm: coalesced (R56), appended (R57) or lost (R58), with the outcome. -/
def State.takeAlarm (s : State) (a : Alarm) : State × Admission :=
  match coalesce a s.alarms.reverse with
  | some (q, seq) => (s.withAlarms q.reverse, .coalesced seq)
  | none =>
    if s.alarms.length < Config.ordinaryAlarms then (s.appendAlarm a, .appended s.takeSeq)
    else (s.loseAlarm a, .lost)

/-- A raise whose outcome the raiser does not use. -/
def State.raise (s : State) (a : Alarm) : State := (s.takeAlarm a).1

/-- The records that `leave` holds of leave the queue; the others close up in order (R54). -/
def State.dropAlarms (s : State) (leave : AlarmRecord → Bool) : State :=
  s.withAlarms (s.alarms.filter (fun r => !leave r))

/-- The record holding a SEQ leaves the queue (R63, R67, R68). -/
def State.removeRecord (s : State) (seq : Nat) : State := s.dropAlarms (fun r => r.seq == seq)

/-- Withdrawal of every record whose SUBJECT is channel entry `n` (R70). -/
def State.withdrawChannel (s : State) (n : Fin Config.channelCount) : State :=
  s.dropAlarms (fun r => r.subject == .channel n)

/-- Withdrawal of every LOOP_LIMIT record whose SUBJECT is loop `k` (R71). -/
def State.withdrawLoop (s : State) (k : Fin Config.loopCount) : State :=
  s.dropAlarms (fun r => r.kind == .loopLimit && r.subject == .loop k)

/-! ### FIFOs, responses, lines -/

/-- A cell handed to the north forward FIFO (R120). -/
def State.handNorth (s : State) (c : Cell) : State :=
  match s.north.link with
  | .hunt => s
  | .sync =>
    if s.northFifo.length < Config.northFifoCapacity then { s with northFifo := s.northFifo ++ [c] }
    else { s with northOverflow := bump16 s.northOverflow }

/-- A cell handed to the south pass-through FIFO (R126). -/
def State.handSouth (s : State) (c : Cell) : State :=
  match s.south.link with
  | .hunt => s
  | .sync =>
    if s.southFifo.length < Config.southFifoCapacity then { s with southFifo := s.southFifo ++ [c] }
    else { s with southOverflow := bump16 s.southOverflow }

/-- A response placed in the place reserved for it: holding while the north receiver is in SYNC, discarded in HUNT
(R122, R139). -/
def State.placeResponse (s : State) (c : Cell) : State :=
  match s.north.link with
  | .hunt => { s with reserved := s.reserved - 1 }
  | .sync => { s with reserved := s.reserved - 1, responses := s.responses ++ [c] }

/-- A response place is free (R122). -/
def State.placeFree (s : State) : Bool := s.reserved + s.responses.length < Config.responsePlaces

/-- A happening of the part. While cold reset is held the part takes and sends nothing and no timer runs (R178). -/
def happening (s : State) (effect : State → State) : Host.Outcome State Fault Refusal :=
  .next (if s.coldHeld then s else effect s)

/-- The expiry of a timer. A timer that has been stopped, or started again, after it reached its count does not expire
(section 0.7, R47, R177, R180). -/
def expiry (s : State) (due : State → Bool) (effect : State → State) : Host.Outcome State Fault Refusal :=
  happening s (fun s => if due s then effect s else s)

end Sys2Proof.Machine
end

