-- ==== Sys2Proof/Machine/Loops.lean ====
section
/-! DEFINITION. The Loop Controller (05 Cruise Loops): demand, stepping, source events, manual override, command slots,
the loops' answers to a mode switch and to warm reset, and the commands STEP, STOP_TIMER_EXPIRY and
REFRESH_TIMER_EXPIRY. -/
namespace Sys2Proof.Machine

/-- DRIVE set; PENDING is set when the value is different, and left otherwise (R79). -/
def Loop.setDrive (l : Loop) (d : Nat) : Loop := { l with drive := d, pending := l.pending || decide (l.drive ≠ d) }

/-- The refresh timer started with REFRESH; a REFRESH of 0 leaves it stopped (R94). -/
def Loop.startRefresh (l : Loop) : Loop := { l with refreshTimer := startUnlessZero l.cfg.refresh }

/-- The entry into HELD (R89). -/
def Loop.enterHeld (l : Loop) : Loop :=
  { l.setDrive l.cfg.failsafeDuty with state := .held, stepTimer := none, stopTimer := none, satCount := 0 }

/-- The entry into DISABLED: no command is sent (R99). -/
def Loop.enterDisabled (l : Loop) : Loop :=
  { l with state := .disabled, drive := 0, pending := false, satCount := 0, stepTimer := none, stopTimer := none,
           refreshTimer := none }

/-- The entry into STOPPED with DRIVE 0 (R84, R87). -/
def Loop.enterStopped (l : Loop) : Loop := { l.setDrive 0 with state := .stopped, stopTimer := none, satCount := 0 }

/-- The stop timer started with STOP_TIME; with STOP_TIME 0 the loop enters STOPPED instead (R87). In PASS mode the timer
is not started (R97). -/
def Loop.startStopTimer (mode : Mode) (l : Loop) : Loop :=
  if l.cfg.stopTime = 0 then l.enterStopped else { l with stopTimer := startInActive mode l.cfg.stopTime }

/-- The step timer started again with UP_INTERVAL. -/
def Loop.nextStepUp (mode : Mode) (l : Loop) : Loop := { l with stepTimer := startInActive mode l.cfg.upInterval }

/-- The step timer started again with DOWN_INTERVAL. -/
def Loop.nextStepDown (mode : Mode) (l : Loop) : Loop := { l with stepTimer := startInActive mode l.cfg.downInterval }

/-! ### Demand (R80) -/

/-- A demand. -/
inductive Demand where
  | up
  | down
  | hold
deriving DecidableEq, Repr

/-- The error, computed exactly (R80). -/
def LoopConfig.error (cfg : LoopConfig) (last : Int) : Int :=
  match cfg.sense with
  | .rising => last - cfg.target
  | .falling => cfg.target - last

/-- The demand from the source's LAST (R80). -/
def LoopConfig.demand (cfg : LoopConfig) (last : Int) : Demand :=
  if cfg.error last > cfg.tolerance then .up
  else if cfg.error last < -(cfg.tolerance : Int) then .down
  else .hold

/-! ### Steps (R81 to R86) -/

/-- A refused raise: SAT_COUNT, and whether a LOOP_LIMIT alarm is raised (R85). -/
def Loop.refusedRaise (l : Loop) : Loop × Bool :=
  if l.satCount < l.cfg.satLimit then
    ({ l with satCount := l.satCount + 1 }, decide (l.satCount + 1 = l.cfg.satLimit))
  else if l.satCount = l.cfg.satLimit then (l, false)
  else ({ l with satCount := l.cfg.satLimit }, true)

/-- A step in STOPPED (R82). -/
def Loop.stepStopped (mode : Mode) (d : Demand) (l : Loop) : Loop :=
  match d with
  | .up => Loop.nextStepUp mode { l.setDrive l.cfg.startDuty with state := .starting }
  | .down | .hold => Loop.nextStepUp mode l

/-- A step in RUNNING, with whether it raises LOOP_LIMIT (R84, R85). -/
def Loop.stepRunning (mode : Mode) (d : Demand) (l : Loop) : Loop × Bool :=
  match d with
  | .up =>
    if l.drive < l.cfg.maxDuty then
      (Loop.nextStepUp mode { l.setDrive (min (l.drive + l.cfg.step) l.cfg.maxDuty) with satCount := 0 }, false)
    else (Loop.nextStepUp mode l.refusedRaise.1, l.refusedRaise.2)
  | .down =>
    if l.cfg.stopDuty < l.drive then
      (Loop.nextStepDown mode { l.setDrive (max (l.drive - l.cfg.step) l.cfg.stopDuty) with satCount := 0 }, false)
    else (Loop.nextStepDown mode (Loop.startStopTimer mode { l with state := .stopWait, satCount := 0 }), false)
  | .hold => (Loop.nextStepDown mode { l with satCount := 0 }, false)

/-- A step in STOP_WAIT (R86). -/
def Loop.stepStopWait (mode : Mode) (d : Demand) (l : Loop) : Loop :=
  match d with
  | .up =>
    Loop.nextStepDown mode
      { l.setDrive (min (l.cfg.stopDuty + l.cfg.step) l.cfg.maxDuty) with state := .running, stopTimer := none }
  | .down | .hold => Loop.nextStepDown mode l

/-- A step with its demand, by the loop's state; a step in STARTING is taken as one in RUNNING (R81, R83). Outside the
automatic states there are no steps (R78). -/
def Loop.stepWith (mode : Mode) (d : Demand) (l : Loop) : Loop × Bool :=
  match l.state with
  | .stopped => (l.stepStopped mode d, false)
  | .starting => Loop.stepRunning mode d { l with state := .running }
  | .running => l.stepRunning mode d
  | .stopWait => (l.stepStopWait mode d, false)
  | .disabled | .held | .manual => (l, false)

/-! ### Source events (R89, R90) -/

/-- A source-stale event (R89). -/
def Loop.sourceStale (l : Loop) : Loop := if l.state.automatic then l.enterHeld else l

/-- The resume from HELD (R90). -/
def Loop.resume (mode : Mode) (l : Loop) : Loop :=
  if l.cfg.stopDuty ≤ l.cfg.failsafeDuty then
    Loop.nextStepDown mode { l.setDrive (min l.cfg.failsafeDuty l.cfg.maxDuty) with state := .running, satCount := 0 }
  else Loop.nextStepDown mode { l.setDrive 0 with state := .stopped, satCount := 0 }

/-- A source-sample event: a loop in HELD resumes (R90). -/
def Loop.sourceSample (mode : Mode) (l : Loop) : Loop :=
  match l.state with
  | .held => l.resume mode
  | .disabled | .stopped | .starting | .running | .stopWait | .manual => l

/-- The source-stale event of entry `n`, handed to every loop whose SOURCE is `n` (R89). -/
def State.sourceStaleEvent (s : State) (n : Fin Config.channelCount) : State :=
  s.mapLoops (fun l => if l.cfg.source = n then l.sourceStale else l)

/-- The source-sample event of entry `n`, handed to every loop whose SOURCE is `n` (R33, R90). -/
def State.sourceSampleEvent (s : State) (n : Fin Config.channelCount) : State :=
  s.mapLoops (fun l => if l.cfg.source = n then l.sourceSample s.settings.mode else l)

/-! ### Manual override (R91, R92) -/

/-- The entry into MANUAL, or the change of its duty (R91). -/
def Loop.enterManual (d : Nat) (l : Loop) : Loop :=
  { l.setDrive d with state := .manual, stepTimer := none, stopTimer := none, satCount := 0 }

/-- The release from MANUAL, by the state of the source entry (R92). -/
def Loop.release (mode : Mode) (source : ChannelState) (l : Loop) : Loop :=
  match source with
  | .stale | .unseen => { l.setDrive l.cfg.failsafeDuty with state := .held, satCount := 0 }
  | .normal | .highPend | .high | .lowPend | .low =>
    if l.cfg.stopDuty ≤ l.drive then
      Loop.nextStepDown mode { l.setDrive (min l.drive l.cfg.maxDuty) with state := .running, satCount := 0 }
    else Loop.nextStepDown mode { l.setDrive 0 with state := .stopped, satCount := 0 }

/-! ### Command slots (R93, R96, R98) -/

/-- The COMMAND cell of loop `k`, built at its serving (R93). -/
def Loop.commandCell (k : Fin Config.loopCount) (l : Loop) : Cell :=
  makeCell 2 l.cfg.actNode l.cfg.actPoint 1 l.drive (240 + k) 0

/-- The serving of a slot: PENDING becomes no and the refresh timer starts again (R93, R94). -/
def Loop.served (l : Loop) : Loop := Loop.startRefresh { l with pending := false }

/-- The resynchronisation of the south port: PENDING of every loop outside DISABLED (R96). -/
def Loop.resync (l : Loop) : Loop :=
  match l.state with
  | .disabled => l
  | .held | .stopped | .starting | .running | .stopWait | .manual => { l with pending := true }

/-- A collector command kept from the loop's actuator (R98). -/
def Loop.countGuard (l : Loop) : Loop := { l with guardCount := bump8 l.guardCount }

/-! ### Mode switch and warm reset (R97, R100) -/

/-- The switch from ACTIVE to PASS: the step and stop timers stop (R97). -/
def Loop.toPass (l : Loop) : Loop := { l with stepTimer := none, stopTimer := none }

/-- The switch from PASS to ACTIVE: a loop in an automatic state starts its timers from full (R97). -/
def Loop.toActive (l : Loop) : Loop :=
  match l.state with
  | .stopped | .starting => l.nextStepUp .active
  | .running => l.nextStepDown .active
  | .stopWait => Loop.startStopTimer .active (l.nextStepDown .active)
  | .disabled | .held | .manual => l

/-- The loop after a warm reset (R100). -/
def Loop.warmReset (l : Loop) : Loop :=
  match l.state with
  | .disabled => { l with guardCount := 0 }
  | .held | .stopped | .starting | .running | .stopWait | .manual =>
    Loop.startRefresh
      { l with state := .held, drive := l.cfg.failsafeDuty, pending := true, satCount := 0, guardCount := 0,
               stepTimer := none, stopTimer := none }

/-! ### The timers' happenings -/

/-- A LOOP_LIMIT alarm of loop `k`: VALUE the DRIVE, the alert attribute always yes (R85). -/
def loopLimitAlarm (k : Fin Config.loopCount) (drive : Nat) : Alarm :=
  { kind := .loopLimit, subject := .loop k, value := drive, alert := true }

/-- Loop `k` after a step with demand `d`, and the LOOP_LIMIT alarm if the step raises one (R81, R85). -/
def State.stepLoop (s : State) (k : Fin Config.loopCount) (d : Demand) : State :=
  let out := s.loops[k].stepWith s.settings.mode d
  let stepped := s.updateLoop k (fun _ => out.1)
  if out.2 then stepped.raise (loopLimitAlarm k out.1.drive) else stepped

/-- A step of loop `k`: the source is looked at first (R81). -/
def State.takeStep (s : State) (k : Fin Config.loopCount) : State :=
  let source := s.channels[s.loops[k].cfg.source]
  match source.dyn.state, source.dyn.last with
  | .stale, _ => s.updateLoop k Loop.sourceStale
  | _, none => s.updateLoop k Loop.sourceStale
  | _, some last => s.stepLoop k (s.loops[k].cfg.demand last)

/-- STEP (R81): the step timer of loop `k` expires. -/
def execStep (k : Fin Config.loopCount) (s : State) : Host.Outcome State Fault Refusal :=
  expiry s (fun s => reached s.loops[k].stepTimer) (fun s => s.takeStep k)

/-- What the expiry of the stop timer does to a loop: in STOP_WAIT it enters STOPPED with DRIVE 0 and PENDING set (R87). -/
def Loop.stopExpired (l : Loop) : Loop :=
  match l.state with
  | .stopWait => { l.enterStopped with pending := true }
  | .disabled | .held | .stopped | .starting | .running | .manual => { l with stopTimer := none }

/-- STOP_TIMER_EXPIRY (R87). -/
def execStopTimerExpiry (k : Fin Config.loopCount) (s : State) : Host.Outcome State Fault Refusal :=
  expiry s (fun s => reached s.loops[k].stopTimer) (fun s => s.updateLoop k Loop.stopExpired)

/-- What the expiry of the refresh timer does to a loop: PENDING is set and the timer starts again (R94). -/
def Loop.refreshExpired (l : Loop) : Loop := Loop.startRefresh { l with pending := true }

/-- REFRESH_TIMER_EXPIRY (R94). -/
def execRefreshTimerExpiry (k : Fin Config.loopCount) (s : State) : Host.Outcome State Fault Refusal :=
  expiry s (fun s => reached s.loops[k].refreshTimer) (fun s => s.updateLoop k Loop.refreshExpired)

end Sys2Proof.Machine
end

