-- ==== Sys2Proof/Machine/Channels.lean ====
section
/-! DEFINITION. The Classifier and the Trip Evaluator (01 The Channel Table, 02 Conditioning and Forwarding Policy,
03 Limit Evaluation and Channel States): lookup, the Miss List, conditioning, evaluation, acknowledgement of a trip, the
forward decision, and the commands DEADLINE_EXPIRY and FORWARD_REFRESH_EXPIRY. -/
namespace Sys2Proof.Machine

/-! ### Lookup and the Miss List -/

/-- The lookup of a key: the valid entry that holds it, if there is one (R6). -/
def State.lookup (s : State) (key : Key) : Option (Fin Config.channelCount) :=
  s.findChannel (fun _ e => e.valid && e.cfg.key == key)

/-- HITS of the record that holds the key, or 0 (R14). -/
def missHits (key : Key) (list : List MissRecord) : Nat :=
  match list.find? (fun r => r.key == key) with
  | some r => r.hits
  | none => 0

/-- The record of a key leaves the Miss List (R15). -/
def missRemove (key : Key) (list : List MissRecord) : List MissRecord := list.filter (fun r => r.key != key)

/-- The Miss List after a miss of a key: its record, one hit more, at position 0, and the oldest removed from a full list
that did not hold the key (R14). -/
def missUpdate (key : Key) (list : List MissRecord) : List MissRecord :=
  { key := key, hits := bump8 (missHits key list) } :: (missRemove key list).take (Config.missCapacity - 1)

/-! ### Conditioning (R18) -/

/-- Saturation to a signed 16-bit value (R18). -/
def saturate16 (v : Int) : Int := max (-32768) (min v 32767)

/-- The conditioned value: offset, gain in 1/256, rounded toward minus infinity, saturated (R18). -/
def ChannelConfig.condition (cfg : ChannelConfig) (raw : Int) : Int := saturate16 (((raw + cfg.offset) * cfg.gain) / 256)

/-! ### Evaluation (R33 to R40) -/

/-- The dynamic part of an entry changed. -/
def State.updateDyn (s : State) (n : Fin Config.channelCount) (f : ChannelDynamic → ChannelDynamic) : State :=
  s.updateChannel n (fun e => { e with dyn := f e.dyn })

/-- A channel alarm: the alert attribute is the entry's ALERT as it stands (R49). -/
def State.channelAlarm (s : State) (n : Fin Config.channelCount) (kind : AlarmKind) (v : Int) : Alarm :=
  { kind := kind, subject := .channel n, value := v, alert := s.channels[n].cfg.alert }

/-- A trip to HIGH or LOW: the alarm is raised and TRIP_SEQ set from its admission (R34). -/
def State.trip (s : State) (n : Fin Config.channelCount) (state : ChannelState) (kind : AlarmKind) (v : Int) : State :=
  let entered := s.updateDyn n (fun d => { d with state := state, run := 0, acked := false, clearMet := false })
  let out := entered.takeAlarm (entered.channelAlarm n kind v)
  out.1.updateDyn n (fun d => { d with tripSeq := out.2.seq })

/-- A return to NORMAL, with a CLEARED alarm carrying `v` (R40). -/
def State.returnToNormal (s : State) (n : Fin Config.channelCount) (v : Int) : State :=
  let back := s.updateDyn n (fun d =>
    { d with state := .normal, run := 0, acked := false, clearMet := false, tripSeq := none })
  back.raise (back.channelAlarm n .cleared v)

/-- The side of a limit. -/
inductive Side where
  | high
  | low
deriving DecidableEq, Repr

/-- The pending state of a side. -/
def Side.pend : Side → ChannelState
  | .high => .highPend
  | .low => .lowPend

/-- The tripped state of a side. -/
def Side.tripped : Side → ChannelState
  | .high => .high
  | .low => .low

/-- The alarm KIND of a trip on a side (R34). -/
def Side.kind : Side → AlarmKind
  | .high => .high
  | .low => .low

/-- The side of which a value is out of limits; a value equal to a limit is within (R35). -/
def ChannelConfig.outside (cfg : ChannelConfig) (v : Int) : Option Side :=
  if v > cfg.high then some .high else if v < cfg.low then some .low else none

/-- Whether a value is clear of the tripped limit by HYST (R38). -/
def ChannelConfig.clear (cfg : ChannelConfig) (side : Side) (v : Int) : Bool :=
  match side with
  | .high => decide (v ≤ cfg.high - cfg.hyst)
  | .low => decide (v ≥ cfg.low + cfg.hyst)

/-- A confirmation run that has reached `run` on a side: a trip when it reaches TRIPS, the pending state otherwise
(R35, R36, R37). -/
def State.confirmRun (s : State) (n : Fin Config.channelCount) (side : Side) (run : Nat) (v : Int) : State :=
  if s.channels[n].cfg.trips ≤ run then s.trip n side.tripped side.kind v
  else s.updateDyn n (fun d => { d with state := side.pend, run := run })

/-- The entry in NORMAL with RUN 0 (R35, R36, R37). -/
def State.withinLimits (s : State) (n : Fin Config.channelCount) : State :=
  s.updateDyn n (fun d => { d with state := .normal, run := 0 })

/-- Evaluation from NORMAL (R35). -/
def State.evalNormal (s : State) (n : Fin Config.channelCount) (v : Int) : State :=
  match s.channels[n].cfg.outside v with
  | some side => s.confirmRun n side 1 v
  | none => s.withinLimits n

/-- Evaluation in HIGH_PEND or LOW_PEND: the run goes on, turns to the other side, or ends (R36, R37). -/
def State.evalPend (s : State) (n : Fin Config.channelCount) (side : Side) (v : Int) : State :=
  match s.channels[n].cfg.outside v with
  | some out => if out = side then s.confirmRun n side (s.channels[n].dyn.run + 1) v else s.confirmRun n out 1 v
  | none => s.withinLimits n

/-- The confirmation of a clear run (R39). -/
def State.confirmClear (s : State) (n : Fin Config.channelCount) (v : Int) : State :=
  match s.channels[n].cfg.mode, s.channels[n].dyn.acked with
  | .compare, _ => s.returnToNormal n v
  | .latch, true => s.returnToNormal n v
  | .latch, false => s.updateDyn n (fun d => { d with clearMet := true })

/-- Evaluation in HIGH or LOW (R38, R39). -/
def State.evalTripped (s : State) (n : Fin Config.channelCount) (side : Side) (v : Int) : State :=
  if s.channels[n].cfg.clear side v then
    let run := min (s.channels[n].dyn.run + 1) s.channels[n].cfg.clears
    let counted := s.updateDyn n (fun d => { d with run := run })
    if run = s.channels[n].cfg.clears then counted.confirmClear n v else counted
  else s.updateDyn n (fun d => { d with run := 0, clearMet := false })

/-- The RESUMED alarm of a sample taken in STALE (R46). -/
def State.resumed (s : State) (n : Fin Config.channelCount) (v : Int) : State := s.raise (s.channelAlarm n .resumed v)

/-- The evaluation of a sample, from the state the entry holds (R33). -/
def State.evalSample (s : State) (n : Fin Config.channelCount) (v : Int) : State :=
  match s.channels[n].dyn.state with
  | .unseen | .normal => s.evalNormal n v
  | .stale => (s.resumed n v).evalNormal n v
  | .highPend => s.evalPend n .high v
  | .lowPend => s.evalPend n .low v
  | .high => s.evalTripped n .high v
  | .low => s.evalTripped n .low v

/-- The second step of a taking: the evaluation, and then the source-sample event (R10, R33). -/
def State.evaluate (s : State) (n : Fin Config.channelCount) (v : Int) : State := (s.evalSample n v).sourceSampleEvent n

/-! ### Acknowledgement of a trip (R41, R42) -/

/-- The channel side of an acknowledgement: ACKED yes, TRIP_SEQ absent, and with CLEAR_MET yes the return to NORMAL with
LAST (R41, R42). -/
def State.acknowledge (s : State) (n : Fin Config.channelCount) : State :=
  let acked := s.updateDyn n (fun d => { d with acked := true, tripSeq := none })
  if s.channels[n].dyn.clearMet then acked.returnToNormal n (s.channels[n].dyn.last.getD 0) else acked

/-- The entry whose TRIP_SEQ is a SEQ (R41, R44). -/
def State.tripEntry (s : State) (seq : Nat) : Option (Fin Config.channelCount) :=
  s.findChannel (fun _ e => e.dyn.tripSeq == some seq)

/-! ### The forward decision (R20 to R26) -/

/-- The forward refresh timer at a forward under ON_CHANGE (R24). -/
def forwardStart (refresh : Nat) : ForwardTimer := if 0 < refresh then .running refresh else .idle

/-- The condition of R23 for a forward under ON_CHANGE. -/
def forwardDue (cfg : ChannelConfig) (prior : ChannelState) (d : ChannelDynamic) (v : Int) : Bool :=
  match d.sent with
  | none => true
  | some sent => decide ((v - sent).natAbs ≥ cfg.deadband) || decide (d.state ≠ prior) || d.forward == .expired

/-- The rewritten cell (R22). -/
def rewrite (c : Cell) (state : ChannelState) (v : Int) : Cell :=
  Cell.sealed { c.withValue v with b6 := BitVec.ofNat 8 (128 + ChannelState.code state) }

/-- The fourth step of a taking: the forward decision (R20). -/
def State.forward (s : State) (n : Fin Config.channelCount) (prior : ChannelState) (v : Int) (c : Cell) : State :=
  let e := s.channels[n]
  match e.cfg.policy with
  | .raw => s.handNorth c
  | .conditioned => (s.updateDyn n (fun d => { d with sent := some v })).handNorth (rewrite c e.dyn.state v)
  | .onChange =>
    if forwardDue e.cfg prior e.dyn v then
      (s.updateDyn n (fun d => { d with sent := some v, forward := forwardStart e.cfg.refresh })).handNorth
        (rewrite c e.dyn.state v)
    else s
  | .suppress => s

/-! ### The taking of a SAMPLE (R9, R10, R12) -/

/-- The third step of a taking: the deadline is restarted when SILENCE is above 0 (R10). -/
def Channel.restartDeadline (e : Channel) : Channel :=
  if 0 < e.cfg.silence then { e with deadline := some e.cfg.silence } else e

/-- The taking of a SAMPLE that hits entry `n` (R10). -/
def State.takeHit (s : State) (n : Fin Config.channelCount) (c : Cell) : State :=
  let v := s.channels[n].cfg.condition c.value
  let set := s.updateDyn n (fun d => { d with last := some v, lastRaw := some c.value })
  let evaluated := set.evaluate n v
  (evaluated.updateChannel n Channel.restartDeadline).forward n s.channels[n].dyn.state v c

/-- The taking of a SAMPLE that misses (R12). -/
def State.takeMiss (s : State) (c : Cell) : State :=
  let recorded := { s with missList := missUpdate c.key s.missList, misses := bump16 s.misses }
  match s.settings.missPolicy with
  | .forward => recorded.handNorth c
  | .drop => recorded

/-- The taking of a SAMPLE by the Classifier (R9, R10, R12). -/
def State.classify (s : State) (c : Cell) : State :=
  match s.settings.mode with
  | .pass => s.handNorth c
  | .active =>
    match s.lookup c.key with
    | some n => s.takeHit n c
    | none => s.takeMiss c

/-! ### The timers' happenings -/

/-- The entry into STALE: alarm, then the source-stale event (R45). -/
def State.enterStale (s : State) (n : Fin Config.channelCount) : State :=
  let gone := s.updateDyn n (fun d =>
    { d with state := .stale, run := 0, acked := false, clearMet := false, tripSeq := none })
  (gone.raise (gone.channelAlarm n .stale (s.channels[n].dyn.last.getD 0))).sourceStaleEvent n

/-- The deadline of an entry no longer runs. -/
def Channel.stopDeadline (e : Channel) : Channel := { e with deadline := none }

/-- What the expiry of a deadline does: an expiry that finds the entry in STALE changes nothing but the timer, which has run
out (R45, log 13). -/
def State.deadlineExpires (s : State) (n : Fin Config.channelCount) : State :=
  let expired := s.updateChannel n Channel.stopDeadline
  if s.channels[n].dyn.state = .stale then expired else expired.enterStale n

/-- DEADLINE_EXPIRY (R45): the deadline of entry `n` expires, if it still stands at its count: a sample, a re-install or a
warm reset that came first has started it again, and the expiry does not happen (R47, R50, R180). -/
def execDeadlineExpiry (n : Fin Config.channelCount) (s : State) : Host.Outcome State Fault Refusal :=
  expiry s (fun s => reached s.channels[n].deadline) (fun s => s.deadlineExpires n)

/-- FORWARD_REFRESH_EXPIRY (R24): a RUNNING forward refresh timer that has reached its count becomes EXPIRED. -/
def execForwardRefreshExpiry (n : Fin Config.channelCount) (s : State) : Host.Outcome State Fault Refusal :=
  expiry s (fun s => s.channels[n].dyn.forward.reached) (fun s => s.updateDyn n (fun d => { d with forward := .expired }))

end Sys2Proof.Machine
end

