-- ==== Sys2Proof/Machine/Link.lean ====
section
/-! DEFINITION. The receivers (06 The Chain Link): the judgement and counting of arrivals, the changes of synchronisation
with their effects, the dispatch of good cells, the actuator guard, and the command ARRIVAL. -/
namespace Sys2Proof.Machine

/-! ### Changes of synchronisation (R109 to R111) -/

/-- The LINK alarm of a port (R111). -/
def State.linkAlarm (s : State) (p : Port) (link : LinkState) : Alarm :=
  { kind := .link, subject := .port p, value := LinkState.code link, alert := s.settings.alertLink }

/-- A record at the north port's loss: its resend timer is made STOPPED (R65). -/
def AlarmRecord.linkLost (r : AlarmRecord) : AlarmRecord := { r with resend := .stopped }

/-- A record at the north port's return: a SENT record returns to NEW with ATTEMPTS kept (R66). -/
def AlarmRecord.linkBack (r : AlarmRecord) : AlarmRecord :=
  match r.phase with
  | .sent => { r with phase := .new, resend := .stopped }
  | .new => r

/-- The effects of a port's return (R109, step 2). -/
def State.portReturns (s : State) : Port → State
  | .north => s.withAlarms (s.alarms.map AlarmRecord.linkBack)
  | .south => s.mapLoops Loop.resync

/-- The effects of a port's loss (R110, step 2): reserved response places are kept (R122). -/
def State.portLost (s : State) : Port → State
  | .north => { s with northFifo := [], responses := [] }.withAlarms (s.alarms.map AlarmRecord.linkLost)
  | .south => { s with southFifo := [] }

/-- A receiver as it enters a state: both runs 0 (R109, R110). -/
def Receiver.enter (r : Receiver) (link : LinkState) : Receiver := { r with link := link, goodRun := 0, badRun := 0 }

/-- A receiver enters SYNC (R109). -/
def State.enterSync (s : State) (p : Port) : State :=
  let back := (s.withReceiver p ((s.receiver p).enter .sync)).portReturns p
  back.raise (back.linkAlarm p .sync)

/-- A receiver enters HUNT (R110). -/
def State.enterHunt (s : State) (p : Port) : State :=
  let lost := (s.withReceiver p ((s.receiver p).enter .hunt)).portLost p
  lost.raise (lost.linkAlarm p .hunt)

/-! ### Dispatch (R113 to R117, R130) -/

/-- Dispatch at the south receiver (R113). -/
def State.dispatchSouth (s : State) (c : Cell) : State :=
  match c.kind with
  | 0 | 2 | 3 => s
  | 1 => s.classify c
  | 4 | 5 => s.handNorth (relayNorth c)
  | _ => s.handNorth c

/-- The loop whose actuator the guard protects from a command of this key (R130). -/
def State.guardingLoop (s : State) (key : Key) : Option (Fin Config.loopCount) :=
  s.findLoop (fun _ l => l.state.guarded && l.cfg.actKey == key)

/-- The actuator guard: the command is discarded and counted on the loop, or handed south unchanged (R98, R130). -/
def State.guard (s : State) (c : Cell) : State :=
  match s.guardingLoop c.key with
  | some k => s.updateLoop k Loop.countGuard
  | none => s.handSouth c

/-- The dispatch of an MREQ by its HOP (R116). -/
def State.dispatchRequest (s : State) (c : Cell) : State :=
  if c.hop = 0 then
    if s.requests.length < Config.requestCapacity then { s with requests := s.requests ++ [c] }
    else { s with reqDiscards := bump16 s.reqDiscards }
  else s.handSouth (relaySouth c)

/-- Dispatch at the north receiver (R115). -/
def State.dispatchNorth (s : State) (c : Cell) : State :=
  match c.kind with
  | 0 | 1 | 4 | 5 => s
  | 2 => s.guard c
  | 3 => s.dispatchRequest c
  | _ => s.handSouth c

/-- Dispatch at a port's receiver. -/
def State.dispatch (s : State) (p : Port) (c : Cell) : State :=
  match p with
  | .north => s.dispatchNorth c
  | .south => s.dispatchSouth c

/-! ### Arrivals (R105 to R108) -/

/-- A bad cell or a void period: counted, and in SYNC the fourth in a row brings HUNT (R107, R108, R112). -/
def State.takeBad (s : State) (p : Port) : State :=
  let r := s.receiver p
  let crc := bump16 r.crc
  match r.link with
  | .hunt => s.withReceiver p { r with crc := crc, goodRun := 0 }
  | .sync =>
    let counted := s.withReceiver p { r with crc := crc, badRun := r.badRun + 1 }
    if r.badRun + 1 < Config.badRunToHunt then counted else counted.enterHunt p

/-- A good cell: in HUNT the eighth in a row brings SYNC and no cell is dispatched; in SYNC it is dispatched
(R107, R108). -/
def State.takeGood (s : State) (p : Port) (c : Cell) : State :=
  let r := s.receiver p
  match r.link with
  | .hunt =>
    let counted := s.withReceiver p { r with goodRun := r.goodRun + 1 }
    if r.goodRun + 1 < Config.goodRunToSync then counted else counted.enterSync p
  | .sync => (s.withReceiver p { r with badRun := 0 }).dispatch p c

/-- An arrival: a void period is treated as a bad cell (R105). -/
def State.takeArrival (s : State) (p : Port) : Arrival → State
  | .void => s.takeBad p
  | .cell c => if c.good then s.takeGood p c else s.takeBad p

/-- ARRIVAL (R105). -/
def execArrival (p : Port) (a : Arrival) (s : State) : Host.Outcome State Fault Refusal :=
  happening s (fun s => s.takeArrival p a)

end Sys2Proof.Machine
end

