-- ==== Sys2Proof/Machine/Slots.lean ====
section
/-! DEFINITION. The Announcer and the two transmitters (04 section 4.3, 07 Forwarding and Insertion): the commands
NORTH_SLOT, SOUTH_SLOT and RESEND_TIMER_EXPIRY. The cell a slot sends is shown in northSent or southSent (log 10). -/
namespace Sys2Proof.Machine

/-! ### The Announcer (R60 to R63) -/

/-- A NEW record (R60). -/
def AlarmRecord.isNew (r : AlarmRecord) : Bool := r.phase == .new

/-- A SENT record whose resend timer is DUE (R60). -/
def AlarmRecord.isDue (r : AlarmRecord) : Bool := r.phase == .sent && r.resend == .due

/-- A record after its announcement (R62). -/
def AlarmRecord.announced (resend : Nat) (r : AlarmRecord) : AlarmRecord :=
  { r with attempts := min (r.attempts + 1) 15, phase := .sent, resend := .running resend }

/-- The record at the lowest position that `p` holds of, announced: it, and the queue with it (R60, R62). -/
def announceFirst (p : AlarmRecord → Bool) (resend : Nat) : List AlarmRecord → Option (AlarmRecord × List AlarmRecord)
  | [] => none
  | r :: younger =>
    if p r then some (r.announced resend, r.announced resend :: younger)
    else
      match announceFirst p resend younger with
      | some (sent, q) => some (sent, r :: q)
      | none => none

/-- The record offered: the NEW record at the lowest position, or else the DUE one (R60); with it the queue after its
announcement (R62). -/
def announce (resend : Nat) (q : List AlarmRecord) : Option (AlarmRecord × List AlarmRecord) :=
  match announceFirst AlarmRecord.isNew resend q with
  | some out => some out
  | none => announceFirst AlarmRecord.isDue resend q

/-- The ALARM cell of a record that has been announced (R61). -/
def alarmCell (r : AlarmRecord) : Cell :=
  makeCell 5 (r.subject.number.getD 0) 0 r.kind.code r.value r.seq r.attempts

/-! ### The north transmitter (R123, R124) -/

/-- A cell sent at the north port. -/
def State.sendNorth (s : State) (c : Cell) : State := { s with northSent := some c }

/-- The oldest cell of the north forward FIFO sent; FILL when there is none (R123, cases 2, 5 and 6). -/
def State.sendForwarded (s : State) : State :=
  match s.northFifo with
  | c :: rest => { s with northFifo := rest }.sendNorth c
  | [] => s.sendNorth fillCell

/-- The north slot below the high-water mark: a response, an alarm, a forwarded cell, FILL (R123, cases 3 to 6). -/
def State.sendInserted (s : State) : State :=
  match s.responses with
  | c :: rest => { s with responses := rest }.sendNorth c
  | [] =>
    match announce s.settings.resend s.alarms with
    | some (sent, q) => (s.withAlarms q).sendNorth (alarmCell sent)
    | none => s.sendForwarded

/-- The north slot (R123). -/
def State.fillNorthSlot (s : State) : State :=
  match s.north.link with
  | .hunt => s.sendNorth fillCell
  | .sync => if Config.highWater ≤ s.northFifo.length then s.sendForwarded else s.sendInserted

/-- NORTH_SLOT (R123). -/
def execNorthSlot (s : State) : Host.Outcome State Fault Refusal := happening s State.fillNorthSlot

/-! ### The south transmitter (R127, R128) -/

/-- The loop a slot given to the loops serves: the pending loop with the lowest number above the last served, or else with
the lowest number (R128). -/
def State.loopToServe (s : State) : Option (Fin Config.loopCount) :=
  match s.findLoop (fun k l => decide (s.lastServed < k) && l.pending) with
  | some k => some k
  | none => s.findLoop (fun _ l => l.pending)

/-- A cell sent at the south port. -/
def State.sendSouth (s : State) (c : Cell) : State := { s with southSent := some c }

/-- The serving of the slot of loop `k` (R93, R128). -/
def State.serveLoop (s : State) (k : Fin Config.loopCount) : State :=
  { s.updateLoop k Loop.served with lastServed := k }.sendSouth (s.loops[k].commandCell k)

/-- A contended slot goes to the claimant that lost the last one (R127). -/
def State.contended (s : State) (c : Cell) (rest : List Cell) (k : Fin Config.loopCount) : State :=
  match s.lastWinner with
  | .passThrough => { s with lastWinner := .loops }.serveLoop k
  | .loops => { s with lastWinner := .passThrough, southFifo := rest }.sendSouth c

/-- The south slot (R127). -/
def State.fillSouthSlot (s : State) : State :=
  match s.south.link with
  | .hunt => s.sendSouth fillCell
  | .sync =>
    match s.southFifo, s.loopToServe with
    | c :: rest, some k => s.contended c rest k
    | c :: rest, none => { s with southFifo := rest }.sendSouth c
    | [], some k => s.serveLoop k
    | [], none => s.sendSouth fillCell

/-- SOUTH_SLOT (R127). -/
def execSouthSlot (s : State) : Host.Outcome State Fault Refusal := happening s State.fillSouthSlot

/-! ### The resend timer (R63) -/

/-- Whether an expiry abandons a record: RETRY above 0 and reached (R63). -/
def abandons (retry attempts : Nat) : Bool := decide (0 < retry) && decide (retry ≤ attempts)

/-- The record of a SEQ whose resend timer has reached its count (R63). -/
def State.expiringRecord (s : State) (seq : Nat) : Option AlarmRecord :=
  s.alarms.find? (fun r => r.seq == seq && r.resendReached)

/-- TRIP_SEQ made absent where it is a SEQ, the entry otherwise unchanged (R44). -/
def Channel.forgetTrip (seq : Nat) (e : Channel) : Channel :=
  if e.dyn.tripSeq = some seq then { e with dyn := { e.dyn with tripSeq := none } } else e

/-- Abandonment of the record of a SEQ (R63, R64). -/
def State.abandon (s : State) (seq : Nat) : State :=
  { (s.removeRecord seq).mapChannels (Channel.forgetTrip seq) with abandoned := bump16 s.abandoned }

/-- The record of a SEQ made DUE (R63). -/
def State.makeDue (s : State) (seq : Nat) : State :=
  s.withAlarms (s.alarms.map (fun r => if r.seq = seq then { r with resend := .due } else r))

/-- The expiry of the resend timer of a SEQ; none happens while the north receiver is in HUNT (R63, R65). -/
def State.resendExpires (s : State) (seq : Nat) : State :=
  match s.north.link, s.expiringRecord seq with
  | .sync, some r => if abandons s.settings.retry r.attempts then s.abandon seq else s.makeDue seq
  | .sync, none => s
  | .hunt, _ => s

/-- RESEND_TIMER_EXPIRY (R63): the resend timer of the record holding a SEQ expires. A timer that has been stopped or started
again since it reached its count does not (R177). -/
def execResendTimerExpiry (seq : Nat) (s : State) : Host.Outcome State Fault Refusal :=
  happening s (fun s => s.resendExpires seq)

end Sys2Proof.Machine
end

