-- ==== Sys2Proof/Machine/Resets.lean ====
section
/-! DEFINITION. Cold reset and warm reset (10 Time Base and Start-up, and the reset rules of each chapter): the commands
COLD_RESET and WARM_RESET, and the warm reset that the RESTART request makes too. -/
namespace Sys2Proof.Machine

/-- A channel entry after a warm reset: a valid entry is cleared and its deadline started where it runs (R3, R4, R52). -/
def Channel.warmReset (mode : Mode) (e : Channel) : Channel :=
  if e.valid then { e.clear with deadline := deadlineStart mode e.cfg } else e

/-- The session CLOSED, with its proposal and timers gone and the edit buffer EMPTY; the open counter is kept
(R156, R162). -/
def State.sessionReset (s : State) : State :=
  { s with session := .closed, proposal := none, proposalTimer := none, sessionTimer := none, editBuffer := .empty }

/-- The FIFOs, the response queue and the transmitters after a warm reset (R133). -/
def State.forwardingReset (s : State) : State :=
  { s with northFifo := [], southFifo := [], responses := [], reserved := 0, lastWinner := .passThrough, lastServed := 15,
           northOverflow := 0, southOverflow := 0 }

/-- The Alarm Queue after either reset: empty, NEXT_SEQ 0, ABANDONED 0, ALERT# deasserted (R74). -/
def State.alarmReset (s : State) : State := { s.withAlarms [] with nextSeq := 0, abandoned := 0 }

/-- A warm reset: every block makes its warm-reset effects (R152, R154, R179). -/
def State.warmReset (s : State) : State :=
  let tables := (s.mapChannels (Channel.warmReset s.settings.mode)).mapLoops Loop.warmReset
  { tables.alarmReset.forwardingReset.sessionReset with
    missList := [], misses := 0, requests := [], reqDiscards := 0, agent := .idle }

/-- The cold-reset condition of every block (R178). What lies outside the part is kept: the levels of the input pins, the
commands that wait and the count of free values drawn. -/
def State.coldCondition (s : State) : State :=
  { State.reset with resetLow := s.resetLow, poweringUp := s.poweringUp, restartLow := s.restartLow,
                     freeDraws := s.freeDraws, pending := s.pending }

/-- COLD_RESET (R178): an edge of RESET# or of power-up. The part stands in the cold-reset condition from the assertion on,
and again at the release of a source that held it. -/
def execColdReset (edge : ColdEdge) (s : State) : Host.Outcome State Fault Refusal :=
  match edge with
  | .resetFalls => .next { s.coldCondition with resetLow := true }
  | .resetRises => .next (if s.resetLow then { s.coldCondition with resetLow := false } else s)
  | .powerUpBegins => .next { s.coldCondition with poweringUp := true }
  | .powerUpEnds => .next (if s.poweringUp then { s.coldCondition with poweringUp := false } else s)

/-- What a high-to-low change of RESTART# outside cold reset does: a warm reset if the pin is held low for 1 µs or more;
after a shorter assertion a warm reset or none, by a free value (R179, log 6). -/
def State.restartFalls (s : State) (heldLowNs : Nat) : State :=
  let low := { s with restartLow := true }
  if Config.restartNs ≤ heldLowNs then low.warmReset
  else if Config.shortRestartActs s.freeDraws then { low.warmReset with freeDraws := s.freeDraws + 1 }
  else { low with freeDraws := s.freeDraws + 1 }

/-- WARM_RESET (R179): an edge of RESTART#. A pin that is low already makes no change from high to low, and an assertion
during cold reset is not remembered. -/
def execWarmReset (edge : RestartEdge) (s : State) : Host.Outcome State Fault Refusal :=
  match edge with
  | .rises => .next { s with restartLow := false }
  | .falls heldLowNs =>
    .next (if s.restartLow then s else if s.coldHeld then { s with restartLow := true } else s.restartFalls heldLowNs)

end Sys2Proof.Machine
end

