-- ==== Sys2Proof/Machine/Fields.lean ====
section
/-! DEFINITION. The field tables (11, section 11.4; R143 to R146, R150, R164, R185): what READ answers for a field number,
and what EDIT_SET and SET_PART write. -/
namespace Sys2Proof.Machine

/-- What a field number names: no field of the table, a field that holds no value, or a value (R142, R185). -/
inductive FieldValue where
  | unlisted
  | absent
  | value (v : Int)
deriving DecidableEq, Repr

/-- A field that may be absent. -/
def FieldValue.ofOption : Option Int → FieldValue
  | some v => .value v
  | none => .absent

/-- A number that an *edit* table lists, or none. -/
def FieldValue.ofListed : Option Int → FieldValue
  | some v => .value v
  | none => .unlisted

/-- The fields 1 to 15 of the channel space, those the edit buffer holds. -/
def ChannelConfig.field (cfg : ChannelConfig) : Nat → Option Int
  | 1 => some cfg.node
  | 2 => some cfg.point
  | 3 => some cfg.offset
  | 4 => some cfg.gain
  | 5 => some cfg.high
  | 6 => some cfg.low
  | 7 => some cfg.hyst
  | 8 => some cfg.trips
  | 9 => some cfg.clears
  | 10 => some (TripMode.code cfg.mode)
  | 11 => some (Policy.code cfg.policy)
  | 12 => some cfg.deadband
  | 13 => some cfg.refresh
  | 14 => some cfg.silence
  | 15 => some (yesNo cfg.alert)
  | _ => none

/-- The fields of a channel entry (R143). -/
def Channel.field (e : Channel) (number : Nat) : FieldValue :=
  match number with
  | 0 => .value (yesNo e.valid)
  | 16 => .value e.revision
  | 32 => .value (ChannelState.code e.dyn.state)
  | 33 => .value e.dyn.run
  | 34 => .ofOption e.dyn.last
  | 35 => .ofOption e.dyn.lastRaw
  | 36 => .ofOption e.dyn.sent
  | 37 => .value (yesNo e.dyn.acked)
  | 38 => .value (yesNo e.dyn.clearMet)
  | 39 => .ofOption (e.dyn.tripSeq.map (fun seq => (seq : Int)))
  | other => .ofListed (e.cfg.field other)

/-- The fields 0 to 16 of the loop space, those the edit buffer holds. -/
def LoopConfig.field (cfg : LoopConfig) : Nat → Option Int
  | 0 => some (yesNo cfg.enable)
  | 1 => some (cfg.source : Nat)
  | 2 => some cfg.actNode
  | 3 => some cfg.actPoint
  | 4 => some (Sense.code cfg.sense)
  | 5 => some cfg.target
  | 6 => some cfg.tolerance
  | 7 => some cfg.step
  | 8 => some cfg.upInterval
  | 9 => some cfg.downInterval
  | 10 => some cfg.startDuty
  | 11 => some cfg.stopDuty
  | 12 => some cfg.maxDuty
  | 13 => some cfg.failsafeDuty
  | 14 => some cfg.stopTime
  | 15 => some cfg.refresh
  | 16 => some cfg.satLimit
  | _ => none

/-- The fields of a loop record (R143). -/
def Loop.field (l : Loop) (number : Nat) : FieldValue :=
  match number with
  | 17 => .value l.revision
  | 32 => .value (LoopState.code l.state)
  | 33 => .value l.drive
  | 34 => .value l.satCount
  | 35 => .value l.guardCount
  | 36 => .value (yesNo l.pending)
  | other => .ofListed (l.cfg.field other)

/-- The fields of a LOADED edit buffer; none while it is EMPTY (R144). -/
def EditBuffer.field (b : EditBuffer) (number : Nat) : FieldValue :=
  match b with
  | .empty => .unlisted
  | .channel cfg => if number = 63 then .value 0 else .ofListed (cfg.field number)
  | .loop cfg => if number = 63 then .value 1 else .ofListed (cfg.field number)

/-- The part fields (R145). -/
def State.partField (s : State) : Nat → FieldValue
  | 0 => .value Config.ident
  | 1 => .value Config.stepping
  | 2 => .value (Mode.code s.settings.mode)
  | 3 => .value (MissPolicy.code s.settings.missPolicy)
  | 4 => .value s.settings.resend
  | 5 => .value s.settings.retry
  | 6 => .value s.settings.sessionTimeout
  | 7 => .value (yesNo s.settings.alertLink)
  | 8 => .value (yesNo s.frozen)
  | 9 => .value (SessionState.code s.session)
  | 10 => .value (LinkState.code s.north.link)
  | 11 => .value (LinkState.code s.south.link)
  | 12 => .value s.north.crc
  | 13 => .value s.south.crc
  | 14 => .value s.northOverflow
  | 15 => .value s.southOverflow
  | 16 => .value s.misses
  | 17 => .value s.reqDiscards
  | 18 => .value s.abandoned
  | 19 => .value s.alarms.length
  | 20 => .value s.nextSeq
  | _ => .unlisted

/-- The fields of a Miss List record (R146). -/
def MissRecord.field (r : MissRecord) : Nat → FieldValue
  | 0 => .value r.key.node
  | 1 => .value r.key.point
  | 2 => .value r.hits
  | _ => .unlisted

/-- The fields of an alarm record; SUBJECT of the LOST record is absent (R73, R146). -/
def AlarmRecord.field (r : AlarmRecord) : Nat → FieldValue
  | 0 => .value r.seq
  | 1 => .value (AlarmKind.code r.kind)
  | 2 => .ofOption (r.subject.number.map (fun n => (n : Int)))
  | 3 => .value r.value
  | 4 => .value (yesNo r.alert)
  | 5 => .value (Phase.code r.phase)
  | 6 => .value r.attempts
  | _ => .unlisted

/-! ### Writing a field -/

/-- What a write of one field does: the number is not listed, the field cannot be written, VALUE is out of its range, or
the record with the field written (R164, R185). -/
inductive FieldWrite (α : Type) where
  | unlisted
  | readOnly
  | badValue
  | written (record : α)
deriving DecidableEq, Repr

/-- A write of a field whose values are the integers from `lo` to `hi`. -/
def writeInt {α : Type} (lo hi v : Int) (set : Int → α) : FieldWrite α :=
  if lo ≤ v ∧ v ≤ hi then .written (set v) else .badValue

/-- A write of a field whose values are the numbers from `lo` to `hi`. -/
def writeNat {α : Type} (lo hi : Nat) (v : Int) (set : Nat → α) : FieldWrite α :=
  writeInt lo hi v (fun w => set w.toNat)

/-- A write of a yes/no field. -/
def writeYesNo {α : Type} (v : Int) (set : Bool → α) : FieldWrite α := writeNat 0 1 v (fun w => set (w == 1))

/-- A write of an enumerated field: a code that names no member is out of range (R185). -/
def writeCode {α β : Type} (member : Option β) (set : β → α) : FieldWrite α :=
  match member with
  | some m => .written (set m)
  | none => .badValue

/-- The channel MODE of a code. -/
def tripModeOfCode (v : Int) : Option TripMode := if v = 0 then some .compare else if v = 1 then some .latch else none

/-- The POLICY of a code. -/
def policyOfCode (v : Int) : Option Policy :=
  if v = 0 then some .raw else if v = 1 then some .conditioned else if v = 2 then some .onChange
  else if v = 3 then some .suppress else none

/-- The SENSE of a code. -/
def senseOfCode (v : Int) : Option Sense := if v = 0 then some .rising else if v = 1 then some .falling else none

/-- The conditioner mode of a code. -/
def modeOfCode (v : Int) : Option Mode := if v = 0 then some .pass else if v = 1 then some .active else none

/-- The miss policy of a code. -/
def missPolicyOfCode (v : Int) : Option MissPolicy := if v = 0 then some .forward else if v = 1 then some .drop else none

/-- The channel entry of a number given as VALUE. -/
def channelOfInt (v : Int) : Option (Fin Config.channelCount) := if 0 ≤ v then channelOfNat v.toNat else none

/-- EDIT_SET of one field of a channel record (R164, R185). -/
def ChannelConfig.write (cfg : ChannelConfig) (number : Nat) (v : Int) : FieldWrite ChannelConfig :=
  match number with
  | 1 => writeNat 0 63 v (fun w => { cfg with node := w })
  | 2 => writeNat 0 7 v (fun w => { cfg with point := w })
  | 3 => writeInt (-32768) 32767 v (fun w => { cfg with offset := w })
  | 4 => writeInt (-32768) 32767 v (fun w => { cfg with gain := w })
  | 5 => writeInt (-32768) 32767 v (fun w => { cfg with high := w })
  | 6 => writeInt (-32768) 32767 v (fun w => { cfg with low := w })
  | 7 => writeNat 0 32767 v (fun w => { cfg with hyst := w })
  | 8 => writeNat 1 8 v (fun w => { cfg with trips := w })
  | 9 => writeNat 1 8 v (fun w => { cfg with clears := w })
  | 10 => writeCode (tripModeOfCode v) (fun w => { cfg with mode := w })
  | 11 => writeCode (policyOfCode v) (fun w => { cfg with policy := w })
  | 12 => writeNat 0 32767 v (fun w => { cfg with deadband := w })
  | 13 => writeNat 0 255 v (fun w => { cfg with refresh := w })
  | 14 => writeNat 0 32767 v (fun w => { cfg with silence := w })
  | 15 => writeYesNo v (fun w => { cfg with alert := w })
  | 0 | 16 | 32 | 33 | 34 | 35 | 36 | 37 | 38 | 39 | 63 => .readOnly
  | _ => .unlisted

/-- EDIT_SET of one field of a loop record (R164, R185). -/
def LoopConfig.write (cfg : LoopConfig) (number : Nat) (v : Int) : FieldWrite LoopConfig :=
  match number with
  | 0 => writeYesNo v (fun w => { cfg with enable := w })
  | 1 => writeCode (channelOfInt v) (fun w => { cfg with source := w })
  | 2 => writeNat 0 63 v (fun w => { cfg with actNode := w })
  | 3 => writeNat 0 7 v (fun w => { cfg with actPoint := w })
  | 4 => writeCode (senseOfCode v) (fun w => { cfg with sense := w })
  | 5 => writeInt (-32768) 32767 v (fun w => { cfg with target := w })
  | 6 => writeNat 0 32767 v (fun w => { cfg with tolerance := w })
  | 7 => writeNat 1 64 v (fun w => { cfg with step := w })
  | 8 => writeNat 1 255 v (fun w => { cfg with upInterval := w })
  | 9 => writeNat 1 255 v (fun w => { cfg with downInterval := w })
  | 10 => writeNat 1 255 v (fun w => { cfg with startDuty := w })
  | 11 => writeNat 1 255 v (fun w => { cfg with stopDuty := w })
  | 12 => writeNat 1 255 v (fun w => { cfg with maxDuty := w })
  | 13 => writeNat 0 255 v (fun w => { cfg with failsafeDuty := w })
  | 14 => writeNat 0 32767 v (fun w => { cfg with stopTime := w })
  | 15 => writeNat 0 255 v (fun w => { cfg with refresh := w })
  | 16 => writeNat 1 255 v (fun w => { cfg with satLimit := w })
  | 17 | 32 | 33 | 34 | 35 | 36 | 63 => .readOnly
  | _ => .unlisted

/-- SET_PART of one setting (R150, R185). -/
def Settings.write (p : Settings) (number : Nat) (v : Int) : FieldWrite Settings :=
  match number with
  | 2 => writeCode (modeOfCode v) (fun w => { p with mode := w })
  | 3 => writeCode (missPolicyOfCode v) (fun w => { p with missPolicy := w })
  | 4 => writeNat 1 255 v (fun w => { p with resend := w })
  | 5 => writeNat 0 15 v (fun w => { p with retry := w })
  | 6 => writeNat 10 32767 v (fun w => { p with sessionTimeout := w })
  | 7 => writeYesNo v (fun w => { p with alertLink := w })
  | 0 | 1 | 8 | 9 | 10 | 11 | 12 | 13 | 14 | 15 | 16 | 17 | 18 | 19 | 20 => .readOnly
  | _ => .unlisted

end Sys2Proof.Machine
end

