-- ==== Sys2Proof/Machine/Agent.lean ====
section
/-! DEFINITION. The Management Agent's taking of a request (08 sections 8.2 to 8.4): which row takes it, the gates, the
completion, and the command UNKNOWN_REQUEST. The commands of the other requests are in Requests.lean, Session.lean and
Commit.lean. -/
namespace Sys2Proof.Machine

/-- The rows of the command table that are takings of the Agent. -/
inductive RequestRow where
  | read
  | unknownRequest
  | openPhase1
  | openPhase2
  | close
  | editLoad
  | editSet
  | commit
  | removeChannel
  | removeLoop
  | setPart
  | ackAlarm
  | ackChannel
  | manual
  | manualRelease
  | clearMiss
  | clearPart
  | restart
  | freeze
deriving DecidableEq, Repr

/-- Whether a row takes a request, by its request code and by the selector (phase, SPACE, VALUE) that divides the code's
rows. A request whose selector names no row of its code is taken by either, with the refusal its rule gives (log 2). -/
def RequestRow.takes (row : RequestRow) (r : Request) : Bool :=
  match row with
  | .read => r.op == 1
  | .unknownRequest => r.op == 0 || decide (14 ≤ r.op)
  | .openPhase1 => r.op == 2 && r.aux != 2
  | .openPhase2 => r.op == 2 && r.aux != 1
  | .close => r.op == 3
  | .editLoad => r.op == 4
  | .editSet => r.op == 5
  | .commit => r.op == 6
  | .removeChannel => r.op == 7 && r.space != some .loop
  | .removeLoop => r.op == 7 && r.space != some .channel
  | .setPart => r.op == 8
  | .ackAlarm => r.op == 9 && r.space != some .channel
  | .ackChannel => r.op == 9 && r.space != some .alarm
  | .manual => r.op == 10 && r.value != -1
  | .manualRelease => r.op == 10 && r.value == -1
  | .clearMiss => r.op == 11 && r.space != some .part
  | .clearPart => r.op == 11 && r.space != some .miss
  | .restart => r.op == 12
  | .freeze => r.op == 13

/-- The Agent's taking of the oldest request, when it is IDLE, a response place is free and the request is one of the row:
the request leaves the queue and a place is reserved for it (R138). Otherwise the taking does not happen (log 1). -/
def State.takeRequest (s : State) (row : RequestRow) (execute : State → Cell → Request → State) : State :=
  match s.agent, s.requests with
  | .idle, c :: rest =>
    if s.placeFree && row.takes (Request.ofCell c) then
      execute { s with requests := rest, reserved := s.reserved + 1 } c (Request.ofCell c)
    else s
  | .idle, [] => s
  | .committing _, _ => s

/-! ### The session's part in every request -/

/-- The proposal is dropped: the session enters CLOSED (R158). -/
def State.dropProposal (s : State) : State := { s with session := .closed, proposal := none, proposalTimer := none }

/-- Gate 1 for every request but the matching phase 2: a standing proposal is dropped (R141, R158). -/
def State.resolveProposal (s : State) : State :=
  match s.session with
  | .proposed => s.dropProposal
  | .closed | .opened => s

/-- The session timer started with SESSION_TIMEOUT, in an OPEN session (R156, R161). -/
def State.startSessionTimer (s : State) : State :=
  match s.session with
  | .opened => { s with sessionTimer := some s.settings.sessionTimeout }
  | .closed | .proposed => s

/-- The completion of a request: its response is built and placed, and the session timer is started in an OPEN session as
the last effect (R136, R139, R161). -/
def State.complete (s : State) (c : Cell) (reply : Reply) : State :=
  (s.placeResponse (responseCell c reply)).startSessionTimer

/-- What a request's own rule does: the part after its effects, and the answer. -/
structure Answer where
  state : State
  reply : Reply
deriving DecidableEq, Repr

/-- The answer of a request that has no effect. -/
def State.answer (s : State) (reply : Reply) : Answer := { state := s, reply := reply }

/-- A refusal: a status and no effect (R141). -/
def State.refuse (s : State) (st : Status) : Answer := s.answer (.plain st)

/-- The gates of a request (R141). -/
structure Gates where
  needsOpen     : Bool
  refusedFrozen : Bool
deriving DecidableEq, Repr

/-- The requests that pass gates 3 and 4 in every state: READ, ACK and those with a handshake of their own. -/
def Gates.free : Gates := { needsOpen := false, refusedFrozen := false }

/-- The requests that need an OPEN session. -/
def Gates.session : Gates := { needsOpen := true, refusedFrozen := false }

/-- The requests that need an OPEN session and are refused while frozen. -/
def Gates.table : Gates := { needsOpen := true, refusedFrozen := true }

/-- Gates 3 and 4: the status of the first that refuses (R141). -/
def Gates.refusal (g : Gates) (s : State) : Option Status :=
  if g.needsOpen && decide (s.session ≠ .opened) then some .noSession
  else if g.refusedFrozen && s.frozen then some .frozen
  else none

/-- A request past gate 1: gates 3 and 4, its own rule, and its completion (R139, R141). -/
def State.serve (s : State) (g : Gates) (rule : State → Request → Answer) (c : Cell) (r : Request) : State :=
  let s := s.resolveProposal
  match g.refusal s with
  | some st => s.complete c (.plain st)
  | none => (rule s r).state.complete c (rule s r).reply

/-- The taking of a request that completes in its taking (R138, R139). -/
def State.takeAndServe (s : State) (row : RequestRow) (g : Gates) (rule : State → Request → Answer) : State :=
  s.takeRequest row (fun s c r => s.serve g rule c r)

/-- UNKNOWN_REQUEST (R141, R184): a request code outside 1–13 is answered at gate 2. -/
def execUnknownRequest (s : State) : Host.Outcome State Fault Refusal :=
  happening s (fun s => s.takeAndServe .unknownRequest .free (fun s _ => s.refuse .unknownRequest))

end Sys2Proof.Machine
end

