-- ==== Sys2Proof/Machine/Commit.lean ====
section
/-! DEFINITION. COMMIT, the end of its scan with the checks and the installs, and REMOVE (09 sections 9.3 and 9.4). -/
namespace Sys2Proof.Machine

/-! ### COMMIT: the screening (R165) -/

/-- What a COMMIT that passes its screening installs, and where. -/
inductive CommitTarget where
  | channel (n : Fin Config.channelCount) (cfg : ChannelConfig)
  | loop (k : Fin Config.loopCount) (cfg : LoopConfig)
deriving DecidableEq, Repr

/-- The outcome of the screening. -/
inductive Screening where
  | refused (st : Status)
  | passed (target : CommitTarget)
deriving DecidableEq, Repr

/-- The screening of a COMMIT, in order (R165). -/
def State.screen (s : State) (r : Request) : Screening :=
  match r.space, s.editBuffer with
  | some .channel, .channel cfg =>
    match channelOfNat r.entry with
    | some n => .passed (.channel n cfg)
    | none => .refused .badEntry
  | some .loop, .loop cfg =>
    match loopOfNat r.entry with
    | some k => .passed (.loop k cfg)
    | none => .refused .badEntry
  | some .channel, .empty | some .loop, .empty => .refused .emptyEdit
  | some .channel, .loop _ | some .loop, .channel _ => .refused .wrongSpace
  | some .edit, _ | some .part, _ | some .miss, _ | some .alarm, _ | none, _ => .refused .badSpace

/-- A COMMIT past gate 1: gates 3 and 4, the screening, and the entry into COMMITTING with the session timer stopped and
the response place still reserved (R139, R165). -/
def State.takeCommit (s : State) (c : Cell) (r : Request) : State :=
  let s := s.resolveProposal
  match Gates.table.refusal s with
  | some st => s.complete c (.plain st)
  | none =>
    match s.screen r with
    | .refused st => s.complete c (.plain st)
    | .passed _ => { s with agent := .committing c, sessionTimer := none }

/-- COMMIT (R165). -/
def execCommit (s : State) : Host.Outcome State Fault Refusal :=
  happening s (fun s => s.takeRequest .commit State.takeCommit)

/-! ### The checks (R167, R168) -/

/-- Whether an install changes the key of a valid target (R167). -/
def Channel.keyChanges (e : Channel) (cfg : ChannelConfig) : Bool := e.valid && e.cfg.key != cfg.key

/-- The valid entry other than the target that holds the buffer's key (R5, R167). -/
def State.keyHolder (s : State) (n : Fin Config.channelCount) (cfg : ChannelConfig) : Option (Fin Config.channelCount) :=
  s.findChannel (fun m e => m != n && e.valid && e.cfg.key == cfg.key)

/-- The loop that refuses the install IN_USE (R167). -/
def State.channelInUse (s : State) (n : Fin Config.channelCount) (cfg : ChannelConfig) : Option (Fin Config.loopCount) :=
  if s.channels[n].keyChanges cfg then s.controllingLoop n else none

/-- The checks of a channel COMMIT, in order: the first that fails (R167). -/
def State.channelChecks (s : State) (n : Fin Config.channelCount) (cfg : ChannelConfig) : Option Reply :=
  if ¬(1 ≤ cfg.node ∧ cfg.node ≤ 63) then some (.failedCheck 1)
  else if ¬(cfg.low < cfg.high) then some (.failedCheck 2)
  else if ¬((cfg.hyst : Int) ≤ cfg.high - cfg.low) then some (.failedCheck 3)
  else
    match s.keyHolder n cfg with
    | some m => some (.naming .duplicate (m : Nat))
    | none => (s.channelInUse n cfg).map (fun k => .naming .inUse (k : Nat))

/-- The loop other than the target, not in DISABLED, that has the buffer's actuator key (R168). -/
def State.actuatorHolder (s : State) (k : Fin Config.loopCount) (cfg : LoopConfig) : Option (Fin Config.loopCount) :=
  s.findLoop (fun j l => j != k && decide (l.state ≠ .disabled) && l.cfg.actKey == cfg.actKey)

/-- The checks of a loop COMMIT, in order: the first that fails; none is made with ENABLE no (R168). -/
def State.loopChecks (s : State) (k : Fin Config.loopCount) (cfg : LoopConfig) : Option Reply :=
  if ¬cfg.enable then none
  else if ¬s.channels[cfg.source].valid then some (.failedCheck 1)
  else if ¬(1 ≤ cfg.actNode ∧ cfg.actNode ≤ 63) then some (.failedCheck 2)
  else if ¬(cfg.stopDuty ≤ cfg.startDuty ∧ cfg.startDuty ≤ cfg.maxDuty) then some (.failedCheck 3)
  else (s.actuatorHolder k cfg).map (fun j => .naming .duplicate (j : Nat))

/-! ### Installs into a channel entry (R170, R171) -/

/-- The forward refresh timer after a re-install (R26). -/
def ChannelDynamic.forwardAfter (d : ChannelDynamic) (mode : Mode) (cfg : ChannelConfig) : ForwardTimer :=
  if cfg.policy = .onChange ∧ 0 < cfg.refresh ∧ d.sent.isSome ∧ mode = .active then .running cfg.refresh else .idle

/-- The dynamic part after a re-install (R50). -/
def ChannelDynamic.reinstalled (d : ChannelDynamic) (mode : Mode) (cfg : ChannelConfig) : ChannelDynamic :=
  let kept := { d with forward := d.forwardAfter mode cfg }
  match d.state with
  | .unseen | .normal | .stale => { kept with run := 0 }
  | .highPend | .lowPend => { kept with state := .normal, run := 0 }
  | .high | .low => { kept with run := min d.run cfg.clears }

/-- An entry after a re-install (R170). -/
def Channel.reinstall (mode : Mode) (cfg : ChannelConfig) (e : Channel) : Channel :=
  { e with cfg := cfg, revision := wrap8 e.revision, dyn := e.dyn.reinstalled mode cfg, deadline := deadlineStart mode cfg }

/-- An entry after a fresh install (R171). -/
def Channel.freshInstall (mode : Mode) (cfg : ChannelConfig) (e : Channel) : Channel :=
  { valid := true, cfg := cfg, revision := wrap8 e.revision, dyn := .cleared, deadline := deadlineStart mode cfg }

/-- Whether an install into an entry is a re-install (R170). -/
def Channel.reinstalls (e : Channel) (cfg : ChannelConfig) : Bool := e.valid && e.cfg.key == cfg.key

/-- An install into channel entry `n` (R170, R171); the Miss List record of the installed key leaves (R15). -/
def State.installChannel (s : State) (n : Fin Config.channelCount) (cfg : ChannelConfig) : State :=
  let s := { s with missList := missRemove cfg.key s.missList }
  if s.channels[n].reinstalls cfg then s.updateChannel n (Channel.reinstall s.settings.mode cfg)
  else (s.updateChannel n (Channel.freshInstall s.settings.mode cfg)).withdrawChannel n

/-! ### Installs into a loop record (R172, R173) -/

/-- Whether an install changes SOURCE or the actuator key. -/
def Loop.rebinds (l : Loop) (cfg : LoopConfig) : Bool := l.cfg.source != cfg.source || l.cfg.actKey != cfg.actKey

/-- A loop after an install with ENABLE no (R172). -/
def Loop.installDisabled (cfg : LoopConfig) (l : Loop) : Loop :=
  { l.enterDisabled with cfg := cfg, revision := wrap8 l.revision, guardCount := if l.rebinds cfg then 0 else l.guardCount }

/-- A loop after a fresh loop install, from the LAST of its source (R172). -/
def Loop.freshInstall (mode : Mode) (last : Option Int) (cfg : LoopConfig) (l : Loop) : Loop :=
  let base := { l with cfg := cfg, revision := wrap8 l.revision, stopTimer := none, satCount := 0, guardCount := 0,
                       pending := true }
  Loop.startRefresh (match last with
    | some _ => { base with state := .running, drive := cfg.startDuty, stepTimer := startInActive mode cfg.upInterval }
    | none => { base with state := .held, drive := cfg.failsafeDuty, stepTimer := none })

/-- A loop after a loop re-install: STATE is kept and DRIVE brought to the value it requires (R173). -/
def Loop.reinstall (mode : Mode) (cfg : LoopConfig) (l : Loop) : Loop :=
  let base := Loop.startRefresh { l with cfg := cfg, revision := wrap8 l.revision }
  match l.state with
  | .running => base.setDrive (min (max l.drive cfg.stopDuty) cfg.maxDuty)
  | .starting => base.setDrive cfg.startDuty
  | .stopWait => Loop.startStopTimer mode (base.setDrive cfg.stopDuty)
  | .held => base.setDrive cfg.failsafeDuty
  | .stopped => base.setDrive 0
  | .manual | .disabled => base

/-- Whether an enabled install into a loop is a fresh loop install (R172). -/
def Loop.freshens (l : Loop) (cfg : LoopConfig) : Bool := decide (l.state = .disabled) || l.rebinds cfg

/-- An install into loop `k` (R172, R173). -/
def State.installLoop (s : State) (k : Fin Config.loopCount) (cfg : LoopConfig) : State :=
  if ¬cfg.enable then (s.updateLoop k (Loop.installDisabled cfg)).withdrawLoop k
  else if s.loops[k].freshens cfg then
    (s.updateLoop k (Loop.freshInstall s.settings.mode s.channels[cfg.source].dyn.last cfg)).withdrawLoop k
  else s.updateLoop k (Loop.reinstall s.settings.mode cfg)

/-! ### The end of the scan (R169) -/

/-- The judgement of a COMMIT: refused by the first check that fails, or installed with VALUE the new REVISION (R169). -/
def State.judge (s : State) : CommitTarget → Answer
  | .channel n cfg =>
    match s.channelChecks n cfg with
    | some refusal => s.answer refusal
    | none => { state := s.installChannel n cfg, reply := .result (wrap8 s.channels[n].revision) }
  | .loop k cfg =>
    match s.loopChecks k cfg with
    | some refusal => s.answer refusal
    | none => { state := s.installLoop k cfg, reply := .result (wrap8 s.loops[k].revision) }

/-- The target of a COMMIT in flight. The edit buffer stands still for the life of the scan (R166), so that the screening
passes as it did at the taking; where it would not, the COMMIT is refused by it (log 15). -/
def State.endScan (s : State) (c : Cell) : State :=
  match s.screen (Request.ofCell c) with
  | .refused st => { s with agent := .idle }.complete c (.plain st)
  | .passed target => { (s.judge target).state with agent := .idle }.complete c (s.judge target).reply

/-- END_OF_SCAN (R169). With no COMMIT in flight no scan ends. -/
def execEndOfScan (s : State) : Host.Outcome State Fault Refusal :=
  happening s (fun s =>
    match s.agent with
    | .committing c => s.endScan c
    | .idle => s)

/-! ### REMOVE (R175, R176) -/

/-- An entry after its REMOVE (R175). -/
def Channel.remove (e : Channel) : Channel :=
  { e with valid := false, revision := wrap8 e.revision, dyn := .cleared, deadline := none }

/-- A loop after its REMOVE: GUARD_COUNT is kept (R176). -/
def Loop.remove (l : Loop) : Loop :=
  { l.enterDisabled with cfg := { l.cfg with enable := false }, revision := wrap8 l.revision }

/-- REMOVE of channel entry `n` (R175). -/
def State.removeEntry (s : State) (n : Fin Config.channelCount) : Answer :=
  match s.controllingLoop n with
  | some k => s.answer (.naming .inUse (k : Nat))
  | none =>
    { state := (s.updateChannel n Channel.remove).withdrawChannel n, reply := .result (wrap8 s.channels[n].revision) }

/-- REMOVE's checks, in order, and its effect (R175, R176). -/
def State.removeRule (s : State) (r : Request) : Answer :=
  match r.space with
  | some .channel =>
    match channelOfNat r.entry with
    | some n => s.removeEntry n
    | none => s.refuse .badEntry
  | some .loop =>
    match loopOfNat r.entry with
    | some k => { state := (s.updateLoop k Loop.remove).withdrawLoop k, reply := .result (wrap8 s.loops[k].revision) }
    | none => s.refuse .badEntry
  | some .edit | some .part | some .miss | some .alarm | none => s.refuse .badSpace

/-- REMOVE_CHANNEL (R175). -/
def execRemoveChannel (s : State) : Host.Outcome State Fault Refusal :=
  happening s (fun s => s.takeAndServe .removeChannel .table State.removeRule)

/-- REMOVE_LOOP (R176). -/
def execRemoveLoop (s : State) : Host.Outcome State Fault Refusal :=
  happening s (fun s => s.takeAndServe .removeLoop .table State.removeRule)

end Sys2Proof.Machine
end

