-- ==== Sys2Proof/Machine/Requests.lean ====
section
/-! DEFINITION. The requests of 08 Management Requests: READ, ACK, MANUAL, CLEAR, SET_PART, RESTART and FREEZE. -/
namespace Sys2Proof.Machine

/-! ### READ (R142 to R146) -/

/-- The answer for a field: BAD_FIELD, ABSENT, or OK with the value (R142). -/
def FieldValue.reply : FieldValue → Reply
  | .unlisted => .plain .badField
  | .absent => .plain .absent
  | .value v => .result v

/-- The answer for a field of a list position: the number is judged before the position (R142, checks 4 and 5). -/
def positionReply {α : Type} (field : α → Nat → FieldValue) (listed : Nat) (record : Option α) (number : Nat) : Reply :=
  if number < listed then
    match record with
    | some r => (field r number).reply
    | none => .plain .notFound
  else .plain .badField

/-- What READ answers (R142). -/
def State.readReply (s : State) (r : Request) : Reply :=
  match r.space with
  | none => .plain .badSpace
  | some .channel =>
    match channelOfNat r.entry with
    | some n => (s.channels[n].field r.aux).reply
    | none => .plain .badEntry
  | some .loop =>
    match loopOfNat r.entry with
    | some k => (s.loops[k].field r.aux).reply
    | none => .plain .badEntry
  | some .edit =>
    match s.editBuffer with
    | .empty => .plain .emptyEdit
    | .channel cfg => ((EditBuffer.channel cfg).field r.aux).reply
    | .loop cfg => ((EditBuffer.loop cfg).field r.aux).reply
  | some .part => (s.partField r.aux).reply
  | some .miss =>
    if r.entry < Config.missCapacity then positionReply MissRecord.field 3 s.missList[r.entry]? r.aux else .plain .badEntry
  | some .alarm =>
    if r.entry < Config.alarmCapacity then positionReply AlarmRecord.field 7 s.alarms[r.entry]? r.aux else .plain .badEntry

/-- READ (R142): it changes nothing of the part. -/
def execRead (s : State) : Host.Outcome State Fault Refusal :=
  happening s (fun s => s.takeAndServe .read .free (fun s r => s.answer (s.readReply r)))

/-! ### ACK (R147) -/

/-- ACK with SPACE ALARM: the record leaves, and the channel side is made if it was a trip record (R41, R67). -/
def State.ackSeq (s : State) (v : Int) : Answer :=
  match s.alarms.find? (fun rec => (rec.seq : Int) == v) with
  | none => s.refuse .notFound
  | some rec =>
    let removed := s.removeRecord rec.seq
    match s.tripEntry rec.seq with
    | some n => { state := removed.acknowledge n, reply := .plain .ok }
    | none => { state := removed, reply := .plain .ok }

/-- The trip record of an entry leaves the queue (R42, R68). -/
def State.removeTripRecord (s : State) (n : Fin Config.channelCount) : State :=
  match s.channels[n].dyn.tripSeq with
  | some seq => s.removeRecord seq
  | none => s

/-- ACK with SPACE CHANNEL (R42, R68). -/
def State.ackEntry (s : State) (n : Fin Config.channelCount) : Answer :=
  match s.channels[n].dyn.state with
  | .high | .low => { state := (s.removeTripRecord n).acknowledge n, reply := .plain .ok }
  | .unseen | .normal | .highPend | .lowPend | .stale => s.refuse .notFound

/-- ACK by its SPACE (R147). -/
def State.ack (s : State) (r : Request) : Answer :=
  match r.space with
  | some .alarm => s.ackSeq r.value
  | some .channel =>
    match channelOfNat r.entry with
    | some n => s.ackEntry n
    | none => s.refuse .badEntry
  | some .loop | some .edit | some .part | some .miss | none => s.refuse .badSpace

/-- ACK_ALARM (R67, R147). -/
def execAckAlarm (s : State) : Host.Outcome State Fault Refusal :=
  happening s (fun s => s.takeAndServe .ackAlarm .free State.ack)

/-- ACK_CHANNEL (R42, R147). -/
def execAckChannel (s : State) : Host.Outcome State Fault Refusal :=
  happening s (fun s => s.takeAndServe .ackChannel .free State.ack)

/-! ### MANUAL (R148) -/

/-- The answer of a MANUAL that is executed: VALUE is the loop's DRIVE after the request (R148). -/
def State.manualDone (s : State) (k : Fin Config.loopCount) : Answer :=
  { state := s, reply := .result s.loops[k].drive }

/-- MANUAL of loop `k` with a VALUE: a drive (R91) or a release (R92); a loop in DISABLED refuses either. -/
def State.manualLoop (s : State) (k : Fin Config.loopCount) (v : Int) : Answer :=
  match s.loops[k].state with
  | .disabled => s.refuse .badEntry
  | .manual =>
    if v = -1 then
      (s.updateLoop k (Loop.release s.settings.mode s.channels[s.loops[k].cfg.source].dyn.state)).manualDone k
    else (s.updateLoop k (Loop.enterManual v.toNat)).manualDone k
  | .held | .stopped | .starting | .running | .stopWait =>
    if v = -1 then s.manualDone k else (s.updateLoop k (Loop.enterManual v.toNat)).manualDone k

/-- MANUAL's checks, in order (R148). -/
def State.manualRule (s : State) (r : Request) : Answer :=
  match r.space with
  | some .loop =>
    match loopOfNat r.entry with
    | some k => if r.value = -1 ∨ (0 ≤ r.value ∧ r.value ≤ 255) then s.manualLoop k r.value else s.refuse .badValue
    | none => s.refuse .badEntry
  | some .channel | some .edit | some .part | some .miss | some .alarm | none => s.refuse .badSpace

/-- MANUAL (R91, R148). -/
def execManual (s : State) : Host.Outcome State Fault Refusal :=
  happening s (fun s => s.takeAndServe .manual .session State.manualRule)

/-- MANUAL_RELEASE (R92, R148). -/
def execManualRelease (s : State) : Host.Outcome State Fault Refusal :=
  happening s (fun s => s.takeAndServe .manualRelease .session State.manualRule)

/-! ### CLEAR (R149) -/

/-- The part counters set to 0 (R149). -/
def State.clearCounters (s : State) : State :=
  { s with north := { s.north with crc := 0 }, south := { s.south with crc := 0 }, northOverflow := 0, southOverflow := 0,
           misses := 0, reqDiscards := 0, abandoned := 0 }

/-- CLEAR by its SPACE (R149). -/
def State.clearRule (s : State) (r : Request) : Answer :=
  match r.space with
  | some .miss => { state := { s with missList := [] }, reply := .plain .ok }
  | some .part => { state := s.clearCounters, reply := .plain .ok }
  | some .channel | some .loop | some .edit | some .alarm | none => s.refuse .badSpace

/-- CLEAR_MISS (R149). -/
def execClearMiss (s : State) : Host.Outcome State Fault Refusal :=
  happening s (fun s => s.takeAndServe .clearMiss .session State.clearRule)

/-- CLEAR_PART (R149). -/
def execClearPart (s : State) : Host.Outcome State Fault Refusal :=
  happening s (fun s => s.takeAndServe .clearPart .session State.clearRule)

/-! ### SET_PART (R150, R151) -/

/-- An entry at the switch from ACTIVE to PASS: the deadline stops, a RUNNING forward refresh timer goes to IDLE and an
EXPIRED one stays (R11, R25). -/
def Channel.toPass (e : Channel) : Channel :=
  match e.dyn.forward with
  | .running _ => { e.stopDeadline with dyn := { e.dyn with forward := .idle } }
  | .idle | .expired => e.stopDeadline

/-- Whether the switch to ACTIVE starts an entry's forward refresh timer (R25). -/
def Channel.forwardStarts (e : Channel) : Bool :=
  e.valid && e.cfg.policy == .onChange && decide (0 < e.cfg.refresh) && e.dyn.sent.isSome && e.dyn.forward == .idle

/-- An entry at the switch from PASS to ACTIVE: a valid entry starts its deadline when SILENCE is above 0 (R11, R25). -/
def Channel.toActive (e : Channel) : Channel :=
  let started := if e.valid && decide (0 < e.cfg.silence) then { e with deadline := some e.cfg.silence } else e
  if e.forwardStarts then { started with dyn := { e.dyn with forward := .running e.cfg.refresh } } else started

/-- The tables at a switch of the conditioner mode to `mode` (R11, R25, R97). -/
def State.switchTo (s : State) (mode : Mode) : State :=
  match mode with
  | .pass => (s.mapChannels Channel.toPass).mapLoops Loop.toPass
  | .active => (s.mapChannels Channel.toActive).mapLoops Loop.toActive

/-- New settings: a write that changes MODE is a switch (R11, R151). -/
def State.withSettings (s : State) (p : Settings) : State :=
  if p.mode = s.settings.mode then { s with settings := p } else { s.switchTo p.mode with settings := p }

/-- SET_PART's checks, in order, and its effect (R150). -/
def State.setPartRule (s : State) (r : Request) : Answer :=
  match r.space with
  | some .part =>
    match s.settings.write r.aux r.value with
    | .unlisted => s.refuse .badField
    | .readOnly => s.refuse .readOnly
    | .badValue => s.refuse .badValue
    | .written p => { state := s.withSettings p, reply := .result r.value }
  | some .channel | some .loop | some .edit | some .miss | some .alarm | none => s.refuse .badSpace

/-- SET_PART (R150). -/
def execSetPart (s : State) : Host.Outcome State Fault Refusal :=
  happening s (fun s => s.takeAndServe .setPart .table State.setPartRule)

/-! ### RESTART and FREEZE (R152, R153) -/

/-- RESTART (R152): a warm reset, and then the OK response in the emptied response queue. -/
def execRestart (s : State) : Host.Outcome State Fault Refusal :=
  happening s (fun s => s.takeAndServe .restart .session (fun s _ => { state := s.warmReset, reply := .plain .ok }))

/-- FREEZE (R153). -/
def execFreeze (s : State) : Host.Outcome State Fault Refusal :=
  happening s (fun s => s.takeAndServe .freeze .session (fun s _ =>
    { state := { s with frozen := true }, reply := .plain .ok }))

end Sys2Proof.Machine
end

