-- ==== Sys2Proof/Machine/Session.lean ====
section
/-! DEFINITION. The session and the edit buffer (09 sections 9.1 and 9.2): OPEN, CLOSE, EDIT_LOAD, EDIT_SET and the
expiries of the proposal timer and the session timer. -/
namespace Sys2Proof.Machine

/-! ### OPEN (R157, R158) -/

/-- The open counter one further, going from 32767 to 1 (R157). -/
def nextProposal (n : Nat) : Nat := if n < 32767 then n + 1 else 1

/-- A new proposal (R157). -/
def State.propose (s : State) : State :=
  { s with openCounter := nextProposal s.openCounter, session := .proposed, proposal := some (nextProposal s.openCounter),
           proposalTimer := some Config.proposalTicks }

/-- OPEN phase 1, past gate 1; a phase number that is neither 1 nor 2 is answered BAD_PHASE (R157). -/
def State.openPhase1Rule (s : State) (r : Request) : Answer :=
  if r.aux = 1 then
    match s.session with
    | .opened => s.refuse .busy
    | .closed | .proposed => { state := s.propose, reply := .result (nextProposal s.openCounter) }
  else s.refuse .badPhase

/-- OPEN_PHASE_1 (R157). -/
def execOpenPhase1 (s : State) : Host.Outcome State Fault Refusal :=
  happening s (fun s => s.takeAndServe .openPhase1 .free State.openPhase1Rule)

/-- The session opened by the matching phase 2; its timer is started by the completion (R158, R161). -/
def State.openSession (s : State) : State := { s with session := .opened, proposal := none, proposalTimer := none }

/-- Whether a phase 2 matches the standing proposal (R158). -/
def State.matchesProposal (s : State) (r : Request) : Bool :=
  match s.session, s.proposal with
  | .proposed, some p => r.aux == 2 && r.value == (p : Int)
  | _, _ => false

/-- OPEN phase 2: the matching one opens the session at gate 1, any other is out of turn (R158). -/
def State.takePhase2 (s : State) (c : Cell) (r : Request) : State :=
  if s.matchesProposal r then s.openSession.complete c (.result r.value)
  else s.resolveProposal.complete c (.plain .badPhase)

/-- OPEN_PHASE_2 (R158). -/
def execOpenPhase2 (s : State) : Host.Outcome State Fault Refusal :=
  happening s (fun s => s.takeRequest .openPhase2 State.takePhase2)

/-! ### CLOSE and the timers (R159 to R161) -/

/-- The session leaves OPEN: CLOSED, its timer stopped, the edit buffer EMPTY (R156, R162). -/
def State.closeSession (s : State) : State := { s with session := .closed, sessionTimer := none, editBuffer := .empty }

/-- CLOSE, judged on the state that stood before gate 1 (R160). -/
def State.takeClose (s : State) (c : Cell) (_r : Request) : State :=
  match s.session with
  | .opened => s.closeSession.complete c (.plain .ok)
  | .proposed => s.dropProposal.complete c (.plain .ok)
  | .closed => s.complete c (.plain .noSession)

/-- CLOSE (R160). -/
def execClose (s : State) : Host.Outcome State Fault Refusal :=
  happening s (fun s => s.takeRequest .close State.takeClose)

/-- PROPOSAL_TIMER_EXPIRY (R159). -/
def execProposalTimerExpiry (s : State) : Host.Outcome State Fault Refusal :=
  expiry s (fun s => reached s.proposalTimer) State.dropProposal

/-- SESSION_TIMER_EXPIRY (R161). -/
def execSessionTimerExpiry (s : State) : Host.Outcome State Fault Refusal :=
  expiry s (fun s => reached s.sessionTimer) State.closeSession

/-! ### The edit buffer (R162 to R164) -/

/-- EDIT_LOAD's checks, in order, and its effect: VALUE is the REVISION at the load (R163). -/
def State.editLoadRule (s : State) (r : Request) : Answer :=
  match r.space with
  | some .channel =>
    match channelOfNat r.entry with
    | some n => { state := { s with editBuffer := .channel s.channels[n].cfg }, reply := .result s.channels[n].revision }
    | none => s.refuse .badEntry
  | some .loop =>
    match loopOfNat r.entry with
    | some k => { state := { s with editBuffer := .loop s.loops[k].cfg }, reply := .result s.loops[k].revision }
    | none => s.refuse .badEntry
  | some .edit | some .part | some .miss | some .alarm | none => s.refuse .badSpace

/-- EDIT_LOAD (R163). -/
def execEditLoad (s : State) : Host.Outcome State Fault Refusal :=
  happening s (fun s => s.takeAndServe .editLoad .session State.editLoadRule)

/-- The answer of a write into the edit buffer (R164, R185). -/
def State.editWritten {α : Type} (s : State) (v : Int) (load : α → EditBuffer) : FieldWrite α → Answer
  | .unlisted => s.refuse .badField
  | .readOnly => s.refuse .readOnly
  | .badValue => s.refuse .badValue
  | .written cfg => { state := { s with editBuffer := load cfg }, reply := .result v }

/-- EDIT_SET's checks, in order, and its effect (R164). -/
def State.editSetRule (s : State) (r : Request) : Answer :=
  match r.space, s.editBuffer with
  | some .channel, .channel cfg => s.editWritten r.value .channel (cfg.write r.aux r.value)
  | some .loop, .loop cfg => s.editWritten r.value .loop (cfg.write r.aux r.value)
  | some .channel, .empty | some .loop, .empty => s.refuse .emptyEdit
  | some .channel, .loop _ | some .loop, .channel _ => s.refuse .wrongSpace
  | some .edit, _ | some .part, _ | some .miss, _ | some .alarm, _ | none, _ => s.refuse .badSpace

/-- EDIT_SET (R164). -/
def execEditSet (s : State) : Host.Outcome State Fault Refusal :=
  happening s (fun s => s.takeAndServe .editSet .session State.editSetRule)

end Sys2Proof.Machine
end

