-- ==== Sys2Proof/Machine/TimeBase.lean ====
section
/-! DEFINITION. The time base (10 section 10.1): what a step does on an empty queue. One REFCLK period passes; at a tick
boundary every running timer counts, and those that have reached their counts put their expiries into the queue
(log 4, 5). -/
namespace Sys2Proof.Machine

/-- A timer counts a boundary. -/
def countTicks : Option Nat → Option Nat
  | some ticks => some (ticks - 1)
  | none => none

/-- The forward refresh timer counts a boundary. -/
def ForwardTimer.count : ForwardTimer → ForwardTimer
  | .running ticks => .running (ticks - 1)
  | .idle => .idle
  | .expired => .expired

/-- A record's resend timer counts a boundary. -/
def AlarmRecord.count (r : AlarmRecord) : AlarmRecord :=
  match r.resend with
  | .running ticks => { r with resend := .running (ticks - 1) }
  | .stopped | .due => r

/-- An entry's timers count a boundary. -/
def Channel.count (e : Channel) : Channel :=
  { e with deadline := countTicks e.deadline, dyn := { e.dyn with forward := e.dyn.forward.count } }

/-- A loop's timers count a boundary. -/
def Loop.count (l : Loop) : Loop :=
  { l with stepTimer := countTicks l.stepTimer, stopTimer := countTicks l.stopTimer,
           refreshTimer := countTicks l.refreshTimer }

/-- Every timer of the part counts a boundary (R177). -/
def State.countBoundary (s : State) : State :=
  let tables := (s.mapChannels Channel.count).mapLoops Loop.count
  { tables.withAlarms (s.alarms.map AlarmRecord.count) with
    proposalTimer := countTicks s.proposalTimer, sessionTimer := countTicks s.sessionTimer }

/-- A command where it is due. -/
def dueIf (due : Bool) (i : Instr) : List Instr := if due then [i] else []

/-- The expiries of an entry's timers. -/
def State.channelExpiries (s : State) (n : Fin Config.channelCount) : List Instr :=
  dueIf (reached s.channels[n].deadline) (.deadlineExpiry n)
    ++ dueIf s.channels[n].dyn.forward.reached (.forwardRefreshExpiry n)

/-- The expiries of a loop's timers. -/
def State.loopExpiries (s : State) (k : Fin Config.loopCount) : List Instr :=
  dueIf (reached s.loops[k].stepTimer) (.step k) ++ dueIf (reached s.loops[k].stopTimer) (.stopTimerExpiry k)
    ++ dueIf (reached s.loops[k].refreshTimer) (.refreshTimerExpiry k)

/-- The expiries of every timer that has reached its count (R177). -/
def State.expiries (s : State) : List Instr :=
  (List.finRange Config.channelCount).flatMap s.channelExpiries
    ++ (s.alarms.filter AlarmRecord.resendReached).map (fun r => .resendTimerExpiry r.seq)
    ++ (List.finRange Config.loopCount).flatMap s.loopExpiries
    ++ dueIf (reached s.proposalTimer) .proposalTimerExpiry ++ dueIf (reached s.sessionTimer) .sessionTimerExpiry

/-- A ranked command put among ranked commands. -/
def insertRanked (rank : Nat) (i : Instr) : List (Nat × Instr) → List (Nat × Instr)
  | [] => [(rank, i)]
  | (r, j) :: rest => if rank ≤ r then (rank, i) :: (r, j) :: rest else (r, j) :: insertRanked rank i rest

/-- Commands ordered by free ranks, the first rank drawn being number `draw`. -/
def rankAll : (draw : Nat) → List Instr → List (Nat × Instr)
  | _, [] => []
  | draw, i :: rest => insertRanked (Config.expiryRank draw) i (rankAll (draw + 1) rest)

/-- A tick boundary: every timer counts, and the expiries are put into the queue in an order the spec leaves open
(R177, log 5). -/
def State.tickBoundary (s : State) : State :=
  let counted := s.countBoundary
  { counted with divider := 0, freeDraws := s.freeDraws + counted.expiries.length,
                 pending := s.pending ++ (rankAll s.freeDraws counted.expiries).map (fun p => p.2) }

/-- A REFCLK period with no command: the divider advances and makes a boundary every 10 ms; while cold reset is held it
stands still (R177, R178). -/
def State.idle (s : State) : State :=
  if s.coldHeld then s
  else if s.divider + 1 < Config.refclkPerTick then { s with divider := s.divider + 1 }
  else s.tickBoundary

end Sys2Proof.Machine
end

