-- ==== Sys2Proof/Machine/Dispatch.lean ====
section
/-! DEFINITION. The meaning of each command: one arm per row of spec/opcode_table.json. -/
namespace Sys2Proof.Machine

def exec (i : Instr) (s : State) : Host.Outcome State Fault Refusal :=
  match i with
  | .coldReset edge => Sys2Proof.Machine.execColdReset edge s
  | .warmReset edge => Sys2Proof.Machine.execWarmReset edge s
  | .arrival port a => Sys2Proof.Machine.execArrival port a s
  | .northSlot => Sys2Proof.Machine.execNorthSlot s
  | .southSlot => Sys2Proof.Machine.execSouthSlot s
  | .deadlineExpiry n => Sys2Proof.Machine.execDeadlineExpiry n s
  | .forwardRefreshExpiry n => Sys2Proof.Machine.execForwardRefreshExpiry n s
  | .resendTimerExpiry seq => Sys2Proof.Machine.execResendTimerExpiry seq s
  | .step k => Sys2Proof.Machine.execStep k s
  | .stopTimerExpiry k => Sys2Proof.Machine.execStopTimerExpiry k s
  | .refreshTimerExpiry k => Sys2Proof.Machine.execRefreshTimerExpiry k s
  | .proposalTimerExpiry => Sys2Proof.Machine.execProposalTimerExpiry s
  | .sessionTimerExpiry => Sys2Proof.Machine.execSessionTimerExpiry s
  | .read => Sys2Proof.Machine.execRead s
  | .unknownRequest => Sys2Proof.Machine.execUnknownRequest s
  | .openPhase1 => Sys2Proof.Machine.execOpenPhase1 s
  | .openPhase2 => Sys2Proof.Machine.execOpenPhase2 s
  | .close => Sys2Proof.Machine.execClose s
  | .editLoad => Sys2Proof.Machine.execEditLoad s
  | .editSet => Sys2Proof.Machine.execEditSet s
  | .commit => Sys2Proof.Machine.execCommit s
  | .endOfScan => Sys2Proof.Machine.execEndOfScan s
  | .removeChannel => Sys2Proof.Machine.execRemoveChannel s
  | .removeLoop => Sys2Proof.Machine.execRemoveLoop s
  | .setPart => Sys2Proof.Machine.execSetPart s
  | .ackAlarm => Sys2Proof.Machine.execAckAlarm s
  | .ackChannel => Sys2Proof.Machine.execAckChannel s
  | .manual => Sys2Proof.Machine.execManual s
  | .manualRelease => Sys2Proof.Machine.execManualRelease s
  | .clearMiss => Sys2Proof.Machine.execClearMiss s
  | .clearPart => Sys2Proof.Machine.execClearPart s
  | .restart => Sys2Proof.Machine.execRestart s
  | .freeze => Sys2Proof.Machine.execFreeze s

end Sys2Proof.Machine
end

