-- ==== Sys2Proof/Safety.lean ====
section
/-! DEFINITION. What a sound state of the part is, in the terms the statements use: one predicate for each kind of state,
each a law that a rule of the spec states of the part at all times. -/
namespace Sys2Proof

/-- An arrival that is judged bad: a void period or a cell whose CHECK is wrong (R104, R105). -/
abbrev Arrival.Bad (a : Arrival) : Prop :=
  match a with
  | .void => True
  | .cell c => c.good = false

/-- The row of a taking of the Agent; none for a command that is no taking. -/
def Instr.row : Instr → Option Machine.RequestRow
  | .read => some .read
  | .unknownRequest => some .unknownRequest
  | .openPhase1 => some .openPhase1
  | .openPhase2 => some .openPhase2
  | .close => some .close
  | .editLoad => some .editLoad
  | .editSet => some .editSet
  | .commit => some .commit
  | .removeChannel => some .removeChannel
  | .removeLoop => some .removeLoop
  | .setPart => some .setPart
  | .ackAlarm => some .ackAlarm
  | .ackChannel => some .ackChannel
  | .manual => some .manual
  | .manualRelease => some .manualRelease
  | .clearMiss => some .clearMiss
  | .clearPart => some .clearPart
  | .restart => some .restart
  | .freeze => some .freeze
  | .coldReset _ | .warmReset _ | .arrival _ _ | .northSlot | .southSlot | .deadlineExpiry _ | .forwardRefreshExpiry _
  | .resendTimerExpiry _ | .step _ | .stopTimerExpiry _ | .refreshTimerExpiry _ | .proposalTimerExpiry
  | .sessionTimerExpiry | .endOfScan => none

end Sys2Proof

namespace Sys2Proof.Machine

/-- One record of the Alarm Queue (R54, R55). -/
def AlarmRecord.Sound (r : AlarmRecord) : Prop :=
  r.seq < 256 ∧ r.attempts ≤ 15 ∧ (r.phase = .new → r.resend = .stopped) ∧ (r.kind = .lost ↔ r.subject = .noSubject)

/-- The Alarm Queue: at most 32 records, of which at most one is LOST, the 32nd being there only with the LOST record; no
two with the same SEQ; ALERT# follows; no resend timer runs or is DUE while the north receiver is in HUNT (R54, R57, R58,
R65, R72). -/
def State.QueueSound (s : State) : Prop :=
  s.alarms.length ≤ 32 ∧ (s.alarms.filter (fun r => r.kind == .lost)).length ≤ 1
    ∧ (s.alarms.length = 32 → ∃ r ∈ s.alarms, r.kind = .lost)
    ∧ (s.alarms.map (fun r => r.seq)).Nodup ∧ (∀ r ∈ s.alarms, r.Sound) ∧ s.nextSeq < 256
    ∧ s.alertPin = alertOf s.alarms
    ∧ (s.north.link = .hunt → ∀ r ∈ s.alarms, r.resend = .stopped)

/-- The FIFOs, the request queue and the response places: their capacities, the FIFOs closed by HUNT, and a place reserved
exactly while a COMMIT is in flight (R120, R121, R122, R126, R137, R138, R139). -/
def State.LinesSound (s : State) : Prop :=
  s.northFifo.length ≤ 32 ∧ s.southFifo.length ≤ 16 ∧ s.requests.length ≤ 4 ∧ s.reserved + s.responses.length ≤ 4
    ∧ (s.north.link = .hunt → s.northFifo = [] ∧ s.responses = []) ∧ (s.south.link = .hunt → s.southFifo = [])
    ∧ s.reserved = (match s.agent with | .idle => 0 | .committing _ => 1)

/-- The session: the proposal stands in PROPOSED and its timer runs there; the session timer runs in OPEN but while the
Agent is COMMITTING; the edit buffer is EMPTY out of OPEN; a COMMIT in flight has an OPEN session and passes its screening
(R156, R161, R162, R165, R166). -/
def State.SessionSound (s : State) : Prop :=
  (s.session = .proposed ↔ s.proposal.isSome) ∧ (s.session = .proposed ↔ s.proposalTimer.isSome)
    ∧ ((s.session = .opened ∧ s.agent = .idle) ↔ s.sessionTimer.isSome)
    ∧ (s.session ≠ .opened → s.editBuffer = .empty)
    ∧ (match s.agent with
        | .idle => True
        | .committing c => s.session = .opened ∧ ∃ t, s.screen (Request.ofCell c) = .passed t)
    ∧ s.openCounter ≤ 32767 ∧ (∀ p, s.proposal = some p → 1 ≤ p ∧ p = s.openCounter)

/-- The Miss List: at most 8 records, no two of one key, HITS from 1 to 255, none with the key of a valid entry (R13). -/
def State.MissSound (s : State) : Prop :=
  s.missList.length ≤ 8 ∧ (s.missList.map (fun r => r.key)).Nodup ∧ (∀ r ∈ s.missList, 1 ≤ r.hits ∧ r.hits ≤ 255)
    ∧ ∀ r ∈ s.missList, ∀ n : Fin Config.channelCount, s.channels[n].valid → s.channels[n].cfg.key ≠ r.key

/-- No two valid entries have the same key (R5). -/
def State.KeysDistinct (s : State) : Prop :=
  ∀ m n : Fin Config.channelCount, s.channels[m].valid → s.channels[n].valid →
    s.channels[m].cfg.key = s.channels[n].cfg.key → m = n

/-- What an install requires of the static part of a valid entry (R167). -/
def ChannelConfig.Installed (cfg : ChannelConfig) : Prop :=
  1 ≤ cfg.node ∧ cfg.node ≤ 63 ∧ cfg.low < cfg.high ∧ (cfg.hyst : Int) ≤ cfg.high - cfg.low

/-- RUN, ACKED, CLEAR_MET, TRIP_SEQ and LAST take their meaning from STATE (R3, R32). -/
def ChannelDynamic.Sound (d : ChannelDynamic) (cfg : ChannelConfig) : Prop :=
  (d.last.isSome ↔ d.lastRaw.isSome)
    ∧ match d.state with
      | .unseen => d.run = 0 ∧ d.acked = false ∧ d.clearMet = false ∧ d.tripSeq = none ∧ d.last = none
      | .normal => d.run = 0 ∧ d.acked = false ∧ d.clearMet = false ∧ d.tripSeq = none ∧ d.last.isSome
      | .stale => d.run = 0 ∧ d.acked = false ∧ d.clearMet = false ∧ d.tripSeq = none
      | .highPend | .lowPend =>
        1 ≤ d.run ∧ d.run + 1 ≤ cfg.trips ∧ d.acked = false ∧ d.clearMet = false ∧ d.tripSeq = none ∧ d.last.isSome
      | .high | .low => d.run ≤ cfg.clears ∧ d.last.isSome

/-- The forward refresh timer is out of IDLE only in a valid ON_CHANGE entry with REFRESH above 0 and SENT present, runs only in
ACTIVE mode, and in ACTIVE mode is IDLE in no such entry (R4, R24, R25, R26). -/
def Channel.ForwardLaw (mode : Mode) (e : Channel) : Prop :=
  (e.dyn.forward ≠ .idle → e.valid ∧ e.cfg.policy = .onChange ∧ 0 < e.cfg.refresh ∧ e.dyn.sent.isSome)
    ∧ (∀ ticks, e.dyn.forward = .running ticks → mode = .active)
    ∧ (e.valid → e.cfg.policy = .onChange → 0 < e.cfg.refresh → e.dyn.sent.isSome → mode = .active → e.dyn.forward ≠ .idle)

/-- A channel entry (R3, R4, R24, R32, R167). An invalid one has a cleared dynamic part and no deadline; the deadline runs
only in a valid entry with SILENCE above 0 in ACTIVE mode, and there it runs but in STALE. -/
def Channel.Sound (mode : Mode) (e : Channel) : Prop :=
  (e.valid = false → e.dyn = .cleared) ∧ (e.valid → e.cfg.Installed) ∧ e.dyn.Sound e.cfg ∧ e.revision < 256
    ∧ (e.deadline.isSome → e.valid ∧ 0 < e.cfg.silence ∧ mode = .active)
    ∧ (e.valid → 0 < e.cfg.silence → mode = .active → e.dyn.state ≠ .stale → e.deadline.isSome)
    ∧ e.ForwardLaw mode

/-- Every channel entry (R32). -/
def State.ChannelsSound (s : State) : Prop := ∀ n : Fin Config.channelCount, s.channels[n].Sound s.settings.mode

/-- A present TRIP_SEQ names a held record of the entry, HIGH in HIGH and LOW in LOW (R44). -/
def State.TripsNamed (s : State) : Prop :=
  ∀ n : Fin Config.channelCount, ∀ seq, s.channels[n].dyn.tripSeq = some seq →
    ∃ r ∈ s.alarms, r.seq = seq ∧ r.subject = .channel n
      ∧ ((s.channels[n].dyn.state = .high ∧ r.kind = .high) ∨ (s.channels[n].dyn.state = .low ∧ r.kind = .low))

/-- DRIVE by STATE (R79). -/
def Loop.DriveLaw (l : Loop) : Prop :=
  match l.state with
  | .disabled | .stopped => l.drive = 0
  | .starting => l.drive = l.cfg.startDuty
  | .stopWait => l.drive = l.cfg.stopDuty
  | .held => l.drive = l.cfg.failsafeDuty
  | .running => l.cfg.stopDuty ≤ l.drive ∧ l.drive ≤ l.cfg.maxDuty
  | .manual => l.drive ≤ 255

/-- The timers by STATE and the conditioner mode (R78, R81, R87, R94, R97). -/
def Loop.TimersLaw (mode : Mode) (l : Loop) : Prop :=
  (l.stepTimer.isSome ↔ l.state.automatic ∧ mode = .active) ∧ (l.stopTimer.isSome ↔ l.state = .stopWait ∧ mode = .active)
    ∧ (l.refreshTimer.isSome ↔ l.state ≠ .disabled ∧ 0 < l.cfg.refresh)

/-- What an enabled install requires of the duties (R168, L3), and that a loop is in DISABLED exactly with ENABLE no
(R99). -/
def Loop.EnableLaw (l : Loop) : Prop :=
  (l.state = .disabled ↔ l.cfg.enable = false)
    ∧ (l.state ≠ .disabled → l.cfg.stopDuty ≤ l.cfg.startDuty ∧ l.cfg.startDuty ≤ l.cfg.maxDuty
        ∧ 1 ≤ l.cfg.actNode ∧ l.cfg.actNode ≤ 63)

/-- A loop record (R78, R79, R99): SAT_COUNT is 0 outside RUNNING and a loop in DISABLED has nothing pending. -/
def Loop.Sound (mode : Mode) (l : Loop) : Prop :=
  l.DriveLaw ∧ l.TimersLaw mode ∧ l.EnableLaw ∧ (l.state ≠ .running → l.satCount = 0)
    ∧ (l.state = .disabled → l.pending = false) ∧ (l.state = .stopWait → 0 < l.cfg.stopTime)
    ∧ l.revision < 256 ∧ l.guardCount ≤ 255

/-- Every loop record (R78, R79). -/
def State.LoopsSound (s : State) : Prop := ∀ k : Fin Config.loopCount, s.loops[k].Sound s.settings.mode

/-- No two loops outside DISABLED have one actuator key, and the source of every such loop is valid (R77). -/
def State.ActuatorsDistinct (s : State) : Prop :=
  (∀ j k : Fin Config.loopCount, s.loops[j].state ≠ .disabled → s.loops[k].state ≠ .disabled →
      s.loops[j].cfg.actKey = s.loops[k].cfg.actKey → j = k)
    ∧ ∀ k : Fin Config.loopCount, s.loops[k].state ≠ .disabled → s.channels[s.loops[k].cfg.source].valid

/-- The 16-bit counters and a receiver's runs (R106, R112, R132). -/
def State.CountersSound (s : State) : Prop :=
  s.misses ≤ 65535 ∧ s.abandoned ≤ 65535 ∧ s.northOverflow ≤ 65535 ∧ s.southOverflow ≤ 65535 ∧ s.reqDiscards ≤ 65535
    ∧ s.divider < Config.refclkPerTick
    ∧ ∀ p : Port, (s.receiver p).crc ≤ 65535
        ∧ match (s.receiver p).link with
          | .hunt => (s.receiver p).goodRun < 8 ∧ (s.receiver p).badRun = 0
          | .sync => (s.receiver p).badRun < 4 ∧ (s.receiver p).goodRun = 0

/-- While cold reset is held the part stands in the cold-reset condition (R178). -/
def State.ColdSound (s : State) : Prop := s.coldHeld → s = s.coldCondition

/-! ### The ranges of the stored numbers -/

/-- A number of 16 bits, two's complement. -/
abbrev InWord (v : Int) : Prop := -32768 ≤ v ∧ v ≤ 32767

/-- The ranges of the settings (R150). -/
def Settings.InRange (p : Settings) : Prop :=
  1 ≤ p.resend ∧ p.resend ≤ 255 ∧ p.retry ≤ 15 ∧ 10 ≤ p.sessionTimeout ∧ p.sessionTimeout ≤ 32767

/-- The ranges of the static fields of a channel (R1). -/
def ChannelConfig.InRange (cfg : ChannelConfig) : Prop :=
  cfg.node ≤ 63 ∧ cfg.point ≤ 7 ∧ InWord cfg.offset ∧ InWord cfg.gain ∧ InWord cfg.high ∧ InWord cfg.low
    ∧ cfg.hyst ≤ 32767 ∧ 1 ≤ cfg.trips ∧ cfg.trips ≤ 8 ∧ 1 ≤ cfg.clears ∧ cfg.clears ≤ 8
    ∧ cfg.deadband ≤ 32767 ∧ cfg.refresh ≤ 255 ∧ cfg.silence ≤ 32767

/-- The ranges of the dynamic fields of a channel (R3, section 11.4). -/
def ChannelDynamic.InRange (d : ChannelDynamic) : Prop :=
  d.run ≤ 8 ∧ (∀ v, d.last = some v → InWord v) ∧ (∀ v, d.lastRaw = some v → InWord v) ∧ ∀ v, d.sent = some v → InWord v

/-- The ranges of the static fields of a loop (R76). -/
def LoopConfig.InRange (cfg : LoopConfig) : Prop :=
  cfg.actNode ≤ 63 ∧ cfg.actPoint ≤ 7 ∧ InWord cfg.target ∧ cfg.tolerance ≤ 32767 ∧ 1 ≤ cfg.step ∧ cfg.step ≤ 64
    ∧ 1 ≤ cfg.upInterval ∧ cfg.upInterval ≤ 255 ∧ 1 ≤ cfg.downInterval ∧ cfg.downInterval ≤ 255
    ∧ 1 ≤ cfg.startDuty ∧ cfg.startDuty ≤ 255 ∧ 1 ≤ cfg.stopDuty ∧ cfg.stopDuty ≤ 255 ∧ 1 ≤ cfg.maxDuty ∧ cfg.maxDuty ≤ 255
    ∧ cfg.failsafeDuty ≤ 255 ∧ cfg.stopTime ≤ 32767 ∧ cfg.refresh ≤ 255 ∧ 1 ≤ cfg.satLimit ∧ cfg.satLimit ≤ 255

/-- The ranges of a loop record (R76, R78, section 11.4). -/
def Loop.InRange (l : Loop) : Prop := l.cfg.InRange ∧ l.drive ≤ 255 ∧ l.satCount ≤ 255

/-- The edit buffer holds a record in range (R162, R164). -/
def EditBuffer.InRange : EditBuffer → Prop
  | .empty => True
  | .channel cfg => cfg.InRange
  | .loop cfg => cfg.InRange

/-- KIND of an alarm record fixes the kind of its SUBJECT and the range of its VALUE (R55). -/
def AlarmRecord.InRange (r : AlarmRecord) : Prop :=
  match r.kind with
  | .high | .low | .cleared | .stale | .resumed => (∃ n, r.subject = .channel n) ∧ InWord r.value
  | .loopLimit => (∃ k, r.subject = .loop k) ∧ 0 ≤ r.value ∧ r.value ≤ 255
  | .link => (∃ p, r.subject = .port p) ∧ (r.value = 0 ∨ r.value = 1)
  | .lost => r.subject = .noSubject ∧ 1 ≤ r.value ∧ r.value ≤ 32767

/-- Every stored number is in the range its table gives (R1, R3, R13, R54, R55, R76, R78, R150, R162; log 17). -/
def State.RangesSound (s : State) : Prop :=
  s.settings.InRange ∧ s.editBuffer.InRange
    ∧ (∀ n : Fin Config.channelCount, s.channels[n].cfg.InRange ∧ s.channels[n].dyn.InRange)
    ∧ (∀ k : Fin Config.loopCount, s.loops[k].InRange)
    ∧ (∀ r ∈ s.alarms, r.InRange)
    ∧ ∀ r ∈ s.missList, r.key.node ≤ 63 ∧ r.key.point ≤ 7

/-! ### What the statements about single commands are made of -/

/-- A good cell of one kind reaches a port in SYNC, outside cold reset (R108). -/
abbrev State.Reaches (s : State) (p : Port) (kind : Nat) (c : Cell) : Prop :=
  s.coldHeld = false ∧ (s.receiver p).link = .sync ∧ c.good = true ∧ c.kind = kind

/-- The bad run of a port set to 0, as every good cell taken in SYNC does (R108). -/
def State.goodTaken (s : State) (p : Port) : State := s.withReceiver p { s.receiver p with badRun := 0 }

/-- The three conditions under which the Agent takes the oldest request, outside cold reset (R138). -/
abbrev State.CanTake (s : State) (c : Cell) (rest : List Cell) : Prop :=
  s.coldHeld = false ∧ s.agent = .idle ∧ s.requests = c :: rest ∧ s.reserved + s.responses.length < 4

/-- The session as gate 1 leaves it for a request that does not match: a standing proposal is gone (R141, R158). -/
def State.pastGateOne (s : State) : State :=
  if s.session = .proposed then { s with session := .closed, proposal := none, proposalTimer := none } else s

/-- The completion of a request on a part that already has the request's effects: the response is held if the north receiver
is in SYNC and discarded otherwise, and the session timer of an OPEN session is started (R139, R161). -/
def State.answered (t : State) (c : Cell) (reply : Reply) : State :=
  { t with
    responses := if t.north.link = .sync then t.responses ++ [responseCell c reply] else t.responses
    sessionTimer := if t.session = .opened then some t.settings.sessionTimeout else t.sessionTimer }

/-- A step or stop timer started with `ticks`: it runs only in ACTIVE mode (R97). -/
def State.paced (s : State) (ticks : Nat) : Option Nat := if s.settings.mode = .active then some ticks else none

/-- A timer whose setting 0 means that no timer runs (R4, R94). -/
def orStopped (ticks : Nat) : Option Nat := if ticks = 0 then none else some ticks

/-- The part `t` is `s` after a warm reset, field by field (R13, R16, R52, R74, R100, R133, R154, R156). -/
def State.IsWarmResetOf (t s : State) : Prop :=
  t = { s with
        channels := t.channels, loops := t.loops, missList := [], misses := 0, alarms := [], nextSeq := 0, abandoned := 0,
        alertPin := false, northFifo := [], southFifo := [], responses := [], reserved := 0, lastWinner := .passThrough,
        lastServed := 15, northOverflow := 0, southOverflow := 0, requests := [], reqDiscards := 0, agent := .idle,
        session := .closed, proposal := none, proposalTimer := none, sessionTimer := none, editBuffer := .empty }
    ∧ (∀ n : Fin Config.channelCount, t.channels[n] =
        if s.channels[n].valid then
          { s.channels[n] with
            dyn := .cleared
            deadline := if s.settings.mode = .active then orStopped s.channels[n].cfg.silence else none }
        else s.channels[n])
    ∧ ∀ k : Fin Config.loopCount, t.loops[k] =
        if s.loops[k].state = .disabled then { s.loops[k] with guardCount := 0 }
        else
          { s.loops[k] with
            state := .held, drive := s.loops[k].cfg.failsafeDuty, pending := true, satCount := 0, guardCount := 0
            stepTimer := none, stopTimer := none, refreshTimer := orStopped s.loops[k].cfg.refresh }

end Sys2Proof.Machine
end

