-- ==== Sys2Proof/Certificates/Slice0/Obligations.lean ====
section
/-! DEFINITION. The statements for the provers. A statement about a command gives the next state as the state before with
the changed fields written out, so that it says its own frame: every other field is unchanged. Which cell a port sent
(northSent, southSent) is the model's own output field (log 10). -/
open Sys2Proof Sys2Proof.Machine

/-! ### The block and its queue -/

/-- A step with a command in front of the queue is that command's `exec` on the part with the queue's rest. The queue is the
model's form of "happenings, one after another" (section 0.7; log 14, 20). -/
def Obligations.StepRunsFrontCommand : Prop :=
  ∀ (s : State) (c : Instr) (rest : List Instr), s.pending = c :: rest → Machine.step s = exec c { s with pending := rest }

/-- Every command has a next state in every state, one out of turn or on a part held in cold reset too (log 1, 3, 8); none touches
the commands that wait, and none but the two resets touches the divider, the levels of the input pins or the count of free
values (how the model holds the pins and the count: log 11, 12). -/
def Obligations.EveryCommandCompletes : Prop :=
  ∀ (c : Instr) (s : State), ∃ t, exec c s = .next t ∧ t.pending = s.pending
    ∧ ((∀ e, c ≠ .coldReset e) → (∀ e, c ≠ .warmReset e) →
        t.resetLow = s.resetLow ∧ t.poweringUp = s.poweringUp ∧ t.restartLow = s.restartLow ∧ t.divider = s.divider
          ∧ t.freeDraws = s.freeDraws)

/-- Section 10.1 and log 4: a step on an empty queue is one REFCLK period. It only advances the divider, and at the 250000th
period makes a tick boundary, at which every running timer counts once and nothing else of the part changes. -/
def Clause.IdleStepCountsTimers : Prop :=
  ∀ s : State, s.pending = [] →
    (s.coldHeld = true → Machine.step s = .next s)
    ∧ (s.coldHeld = false → s.divider + 1 < 250000 → Machine.step s = .next { s with divider := s.divider + 1 })
    ∧ (s.coldHeld = false → 250000 ≤ s.divider + 1 → ∃ t, Machine.step s = .next t
        ∧ t = { s with
                divider := 0, channels := t.channels, loops := t.loops, alarms := t.alarms, alertPin := alertOf s.alarms
                proposalTimer := s.proposalTimer.map (· - 1), sessionTimer := s.sessionTimer.map (· - 1)
                freeDraws := t.freeDraws, pending := t.pending }
        ∧ (∀ n : Fin 128, t.channels[n] =
            { s.channels[n] with
              deadline := s.channels[n].deadline.map (· - 1)
              dyn := { s.channels[n].dyn with
                       forward := match s.channels[n].dyn.forward with
                         | .running k => .running (k - 1)
                         | .idle => .idle
                         | .expired => .expired } })
        ∧ (∀ k : Fin 16, t.loops[k] =
            { s.loops[k] with
              stepTimer := s.loops[k].stepTimer.map (· - 1), stopTimer := s.loops[k].stopTimer.map (· - 1)
              refreshTimer := s.loops[k].refreshTimer.map (· - 1) })
        ∧ t.alarms = s.alarms.map (fun r =>
            match r.resend with
            | .running k => { r with resend := .running (k - 1) }
            | .stopped | .due => r))

/-- Section 10.1 and log 5: at a tick boundary exactly the timers that reach their counts expire, each as a command of its
own; their order is left open. -/
def Clause.TickBoundaryExpiresReachedTimers : Prop :=
  ∀ s : State, s.pending = [] → s.coldHeld = false → 250000 ≤ s.divider + 1 → ∃ t, Machine.step s = .next t
    ∧ (∀ n, Instr.deadlineExpiry n ∈ t.pending ↔ ∃ k ≤ 1, s.channels[n].deadline = some k)
    ∧ (∀ n, Instr.forwardRefreshExpiry n ∈ t.pending ↔ ∃ k ≤ 1, s.channels[n].dyn.forward = .running k)
    ∧ (∀ q, Instr.resendTimerExpiry q ∈ t.pending ↔ ∃ r ∈ s.alarms, r.seq = q ∧ ∃ k ≤ 1, r.resend = .running k)
    ∧ (∀ k, Instr.step k ∈ t.pending ↔ ∃ j ≤ 1, s.loops[k].stepTimer = some j)
    ∧ (∀ k, Instr.stopTimerExpiry k ∈ t.pending ↔ ∃ j ≤ 1, s.loops[k].stopTimer = some j)
    ∧ (∀ k, Instr.refreshTimerExpiry k ∈ t.pending ↔ ∃ j ≤ 1, s.loops[k].refreshTimer = some j)
    ∧ (Instr.proposalTimerExpiry ∈ t.pending ↔ ∃ j ≤ 1, s.proposalTimer = some j)
    ∧ (Instr.sessionTimerExpiry ∈ t.pending ↔ ∃ j ≤ 1, s.sessionTimer = some j)
    ∧ ∀ c ∈ t.pending, c.row = none ∧ c ≠ .northSlot ∧ c ≠ .southSlot ∧ c ≠ .endOfScan ∧ (∀ p a, c ≠ .arrival p a)
        ∧ (∀ e, c ≠ .coldReset e) ∧ ∀ e, c ≠ .warmReset e

/-- Section 10.1: the time base, which acts when no command waits (log 4, 5). -/
def Obligations.IdleStepIsTheTimeBase : Prop :=
  Clause.IdleStepCountsTimers
    ∧ Clause.TickBoundaryExpiresReachedTimers

/-! ### Resets -/

/-- The cold-reset values that the chapters give (sections 1.1, 1.2, 1.4, 1.6, 4.9, 5.11, 6.4, 7.9, 8.12, 9.1, 10.1). -/
def Obligations.ResetLeavesColdResetValues : Prop :=
  (∀ n : Fin 128, State.reset.channels[n] =
      { valid := false
        cfg := { node := 0, point := 0, offset := 0, gain := 256, high := 32767, low := -32768, hyst := 0, trips := 1,
                 clears := 1, mode := .compare, policy := .raw, deadband := 0, refresh := 0, silence := 0, alert := false }
        revision := 0
        dyn := { state := .unseen, run := 0, last := none, lastRaw := none, sent := none, acked := false, clearMet := false,
                 tripSeq := none, forward := .idle }
        deadline := none })
    ∧ (∀ k : Fin 16, State.reset.loops[k] =
      { cfg := { enable := false, source := 0, actNode := 0, actPoint := 0, sense := .rising, target := 0, tolerance := 0,
                 step := 1, upInterval := 10, downInterval := 10, startDuty := 128, stopDuty := 64, maxDuty := 255,
                 failsafeDuty := 255, stopTime := 100, refresh := 0, satLimit := 20 }
        revision := 0, state := .disabled, drive := 0, satCount := 0, guardCount := 0, pending := false
        stepTimer := none, stopTimer := none, refreshTimer := none })
    ∧ State.reset.settings =
        { mode := .pass, missPolicy := .forward, resend := 50, retry := 5, sessionTimeout := 300, alertLink := false }
    ∧ (∀ p, State.reset.receiver p = { link := .hunt, goodRun := 0, badRun := 0, crc := 0 })
    ∧ State.reset.missList = [] ∧ State.reset.misses = 0
    ∧ State.reset.alarms = [] ∧ State.reset.nextSeq = 0 ∧ State.reset.abandoned = 0 ∧ State.reset.alertPin = false
    ∧ State.reset.northFifo = [] ∧ State.reset.southFifo = [] ∧ State.reset.responses = [] ∧ State.reset.reserved = 0
    ∧ State.reset.lastWinner = .passThrough ∧ State.reset.lastServed = 15
    ∧ State.reset.northOverflow = 0 ∧ State.reset.southOverflow = 0
    ∧ State.reset.requests = [] ∧ State.reset.reqDiscards = 0 ∧ State.reset.agent = .idle
    ∧ State.reset.session = .closed ∧ State.reset.openCounter = 0 ∧ State.reset.proposal = none
    ∧ State.reset.proposalTimer = none ∧ State.reset.sessionTimer = none ∧ State.reset.editBuffer = .empty
    ∧ State.reset.frozen = false ∧ State.reset.divider = 0

/-- Section 10.2 and log 8: each edge of RESET# and of power-up, and what a part held in cold reset does with every other
command: nothing. The fields carried over are what lies outside the part (log 11, 12). -/
def Obligations.ColdResetHoldsAndRestoresThePart : Prop :=
  ∀ s : State,
    let cold (low up : Bool) : State :=
      { State.reset with resetLow := low, poweringUp := up, restartLow := s.restartLow, freeDraws := s.freeDraws
                         pending := s.pending }
    exec (.coldReset .resetFalls) s = .next (cold true s.poweringUp)
      ∧ exec (.coldReset .powerUpBegins) s = .next (cold s.resetLow true)
      ∧ (s.resetLow = true → exec (.coldReset .resetRises) s = .next (cold false s.poweringUp))
      ∧ (s.resetLow = false → exec (.coldReset .resetRises) s = .next s)
      ∧ (s.poweringUp = true → exec (.coldReset .powerUpEnds) s = .next (cold s.resetLow false))
      ∧ (s.poweringUp = false → exec (.coldReset .powerUpEnds) s = .next s)
      ∧ (s.coldHeld = true → ∀ c : Instr, (∀ e, c ≠ .coldReset e) → (∀ e, c ≠ .warmReset e) → exec c s = .next s)

/-- R179: a high-to-low change of RESTART# outside cold reset, held for 1 µs or more, makes a warm reset; a shorter one makes
one or none; a pin already low makes no change; in cold reset only the level is seen. -/
def Obligations.RestartPinMakesWarmReset : Prop :=
  ∀ (s : State) (ns : Nat),
    (s.restartLow = false → s.coldHeld = false → 1000 ≤ ns →
        ∃ t, exec (.warmReset (.falls ns)) s = .next t ∧ t.IsWarmResetOf { s with restartLow := true })
      ∧ (s.restartLow = false → s.coldHeld = false → ns < 1000 →
        ∃ t, exec (.warmReset (.falls ns)) s = .next t
          ∧ (t = { s with restartLow := true, freeDraws := s.freeDraws + 1 }
              ∨ t.IsWarmResetOf { s with restartLow := true, freeDraws := s.freeDraws + 1 }))
      ∧ (s.restartLow = true → exec (.warmReset (.falls ns)) s = .next s)
      ∧ (s.restartLow = false → s.coldHeld = true → exec (.warmReset (.falls ns)) s = .next { s with restartLow := true })
      ∧ exec (.warmReset .rises) s = .next { s with restartLow := false }

/-! ### Cells -/

/-- R114, and the HOP clause of section 6.7: what relaying does to a cell. -/
def Obligations.RelayChangesOnlyHopAndCheck : Prop :=
  (∀ c : Cell, c.hop = 15 → relayNorth c = c)
    ∧ (∀ c : Cell, c.hop ≠ 15 →
        (relayNorth c).hop = c.hop + 1 ∧ (relayNorth c).kind = c.kind ∧ (relayNorth c).good = true
          ∧ relayNorth c = { c with b0 := (relayNorth c).b0, b7 := (relayNorth c).b7 })
    ∧ (∀ c : Cell, c.hop ≠ 0 →
        (relaySouth c).hop = c.hop - 1 ∧ (relaySouth c).kind = c.kind ∧ (relaySouth c).good = true
          ∧ relaySouth c = { c with b0 := (relaySouth c).b0, b7 := (relaySouth c).b7 })
    ∧ (∀ (c : Cell) (r : Reply), (responseCell c r).hop = 0) ∧ ∀ r : AlarmRecord, (alarmCell r).hop = 0

/-- Section 8.1: the response cell, field by field; VALUE holds any result from −32768 to 65535 in its 16 bits. -/
def Clause.ResponseEchoesRequest : Prop :=
  ∀ (c : Cell) (r : Reply),
    (responseCell c r).kind = 4 ∧ (responseCell c r).hop = 0 ∧ (responseCell c r).b1 = c.b1
      ∧ (responseCell c r).space = c.space ∧ (responseCell c r).op = r.status.code ∧ (responseCell c r).b5 = c.b5
      ∧ (responseCell c r).good = true
      ∧ (r.value = none → (responseCell c r).value = c.value)
      ∧ (∀ v : Int, r.value = some v → -32768 ≤ v → v ≤ 65535 →
          (responseCell c r).value = if v ≤ 32767 then v else v - 65536)
      ∧ (r.aux = none → (responseCell c r).b6 = c.b6)
      ∧ (∀ a : Nat, r.aux = some a → a ≤ 255 → (responseCell c r).b6.toNat = a)

/-- R61: the ALARM cell of a record that has been announced, and the content of a loop's COMMAND cell (section 5.7). -/
def Clause.MadeCellsCarryTheirFields : Prop :=
  (∀ r : AlarmRecord, r.seq ≤ 255 → r.attempts ≤ 15 → -32768 ≤ r.value → r.value ≤ 32767 →
      (alarmCell r).kind = 5 ∧ (alarmCell r).hop = 0 ∧ (alarmCell r).b1.toNat = r.subject.number.getD 0
        ∧ (alarmCell r).space = 0 ∧ (alarmCell r).op = r.kind.code ∧ (alarmCell r).value = r.value
        ∧ (alarmCell r).b5.toNat = r.seq ∧ (alarmCell r).b6.toNat = r.attempts ∧ (alarmCell r).good = true)
    ∧ ∀ (k : Fin 16) (l : Loop), l.cfg.actNode ≤ 63 → l.cfg.actPoint ≤ 7 → l.drive ≤ 255 →
        (l.commandCell k).kind = 2 ∧ (l.commandCell k).hop = 0 ∧ (l.commandCell k).b1.toNat = l.cfg.actNode
          ∧ (l.commandCell k).key = ⟨l.cfg.actNode, l.cfg.actPoint⟩ ∧ (l.commandCell k).op = 1
          ∧ (l.commandCell k).value = l.drive ∧ (l.commandCell k).b5.toNat = 240 + k ∧ (l.commandCell k).b6 = 0
          ∧ (l.commandCell k).good = true

/-- R183: the FILL cell, byte by byte. -/
def Clause.FillCellIsZerosAndCheck : Prop :=
  fillCell = { b0 := 0x00#8, b1 := 0x00#8, b2 := 0x00#8, b3 := 0x00#8, b4 := 0x00#8, b5 := 0x00#8, b6 := 0x00#8
               b7 := 0x44#8 }

/-- Section 11.3: the numeric codes. -/
def Clause.CodesAreTheTables : Prop :=
  (Status.ok.code = 0 ∧ Status.noSession.code = 1 ∧ Status.busy.code = 2 ∧ Status.badSpace.code = 3
      ∧ Status.badEntry.code = 4 ∧ Status.badField.code = 5 ∧ Status.badValue.code = 6 ∧ Status.readOnly.code = 7
      ∧ Status.emptyEdit.code = 8 ∧ Status.wrongSpace.code = 9 ∧ Status.invalid.code = 10 ∧ Status.duplicate.code = 11
      ∧ Status.inUse.code = 12 ∧ Status.frozen.code = 13 ∧ Status.notFound.code = 14 ∧ Status.absent.code = 15
      ∧ Status.badPhase.code = 16 ∧ Status.unknownRequest.code = 17)
    ∧ (AlarmKind.high.code = 1 ∧ AlarmKind.low.code = 2 ∧ AlarmKind.cleared.code = 3 ∧ AlarmKind.stale.code = 4
      ∧ AlarmKind.resumed.code = 5 ∧ AlarmKind.loopLimit.code = 6 ∧ AlarmKind.link.code = 7 ∧ AlarmKind.lost.code = 8)
    ∧ (ChannelState.unseen.code = 0 ∧ ChannelState.normal.code = 1 ∧ ChannelState.highPend.code = 2
      ∧ ChannelState.high.code = 3 ∧ ChannelState.lowPend.code = 4 ∧ ChannelState.low.code = 5
      ∧ ChannelState.stale.code = 6)
    ∧ (LoopState.disabled.code = 0 ∧ LoopState.held.code = 1 ∧ LoopState.stopped.code = 2 ∧ LoopState.starting.code = 3
      ∧ LoopState.running.code = 4 ∧ LoopState.stopWait.code = 5 ∧ LoopState.manual.code = 6)
    ∧ (TripMode.compare.code = 0 ∧ TripMode.latch.code = 1)
    ∧ (Policy.raw.code = 0 ∧ Policy.conditioned.code = 1 ∧ Policy.onChange.code = 2 ∧ Policy.suppress.code = 3)
    ∧ (Sense.rising.code = 0 ∧ Sense.falling.code = 1) ∧ (Phase.new.code = 0 ∧ Phase.sent.code = 1)
    ∧ (Mode.pass.code = 0 ∧ Mode.active.code = 1) ∧ (MissPolicy.forward.code = 0 ∧ MissPolicy.drop.code = 1)
    ∧ (SessionState.closed.code = 0 ∧ SessionState.proposed.code = 1 ∧ SessionState.opened.code = 2)
    ∧ (LinkState.hunt.code = 0 ∧ LinkState.sync.code = 1) ∧ (yesNo false = 0 ∧ yesNo true = 1)

/-- The cells the part makes (R61, R183, sections 5.7 and 8.1) and the codes they carry (section 11.3). -/
def Obligations.PartMadeCellsCarryTheirFields : Prop :=
  Clause.ResponseEchoesRequest
    ∧ Clause.MadeCellsCarryTheirFields
    ∧ Clause.FillCellIsZerosAndCheck
    ∧ Clause.CodesAreTheTables

/-- R20 and R23, with the starts of the forward refresh timer (section 2.4): the fourth step of a hit. -/
def Clause.PolicyDecidesTheForward : Prop :=
  ∀ (s : State) (n : Fin 128) (prior : ChannelState) (v : Int) (c : Cell),
    let e := s.channels[n]
    let sending (timer : ForwardTimer) : State :=
      ({ s with channels := s.channels.set n { e with dyn := { e.dyn with sent := some v, forward := timer } } } : State).handNorth
        (rewrite c e.dyn.state v)
    let due := e.dyn.sent = none ∨ (∃ w, e.dyn.sent = some w ∧ (e.cfg.deadband : Int) ≤ |v - w|) ∨ e.dyn.state ≠ prior
      ∨ e.dyn.forward = .expired
    (e.cfg.policy = .raw → s.forward n prior v c = s.handNorth c)
      ∧ (e.cfg.policy = .suppress → s.forward n prior v c = s)
      ∧ (e.cfg.policy = .conditioned → s.forward n prior v c = sending e.dyn.forward)
      ∧ (e.cfg.policy = .onChange → due → 0 < e.cfg.refresh → s.forward n prior v c = sending (.running e.cfg.refresh))
      ∧ (e.cfg.policy = .onChange → due → e.cfg.refresh = 0 → s.forward n prior v c = sending .idle)
      ∧ (e.cfg.policy = .onChange → ¬due → s.forward n prior v c = s)

/-- Section 2.3: the rewritten SAMPLE cell. -/
def Clause.RewriteChangesValueAuxCheck : Prop :=
  ∀ (c : Cell) (st : ChannelState) (v : Int), -32768 ≤ v → v ≤ 32767 →
    (rewrite c st v).value = v ∧ (rewrite c st v).b6.toNat = 128 + st.code ∧ (rewrite c st v).good = true
      ∧ rewrite c st v = { c with b3 := (rewrite c st v).b3, b4 := (rewrite c st v).b4, b6 := (rewrite c st v).b6
                                  b7 := (rewrite c st v).b7 }

/-- R20, R22 and R23: the forward decision and the rewritten cell. -/
def Obligations.PolicyForwardsRewritesOrDiscards : Prop :=
  Clause.PolicyDecidesTheForward
    ∧ Clause.RewriteChangesValueAuxCheck

/-! ### The chain link -/

/-- R107: a receiver in HUNT. -/
def Clause.HuntReceiverCountsGoodRun : Prop :=
  ∀ (s : State) (p : Port), s.coldHeld = false → (s.receiver p).link = .hunt →
    (∀ a : Arrival, a.Bad → exec (.arrival p a) s =
        .next (s.withReceiver p { s.receiver p with crc := min ((s.receiver p).crc + 1) 65535, goodRun := 0 }))
      ∧ (∀ c : Cell, c.good = true → (s.receiver p).goodRun + 1 < 8 → exec (.arrival p (.cell c)) s =
        .next (s.withReceiver p { s.receiver p with goodRun := (s.receiver p).goodRun + 1 }))
      ∧ (∀ c : Cell, c.good = true → 8 ≤ (s.receiver p).goodRun + 1 → exec (.arrival p (.cell c)) s =
        .next (s.enterSync p))

/-- R108: a receiver in SYNC. -/
def Clause.SyncReceiverCountsBadRun : Prop :=
  ∀ (s : State) (p : Port), s.coldHeld = false → (s.receiver p).link = .sync →
    (∀ c : Cell, c.good = true → exec (.arrival p (.cell c)) s = .next ((s.goodTaken p).dispatch p c))
      ∧ (∀ a : Arrival, a.Bad → (s.receiver p).badRun + 1 < 4 → exec (.arrival p a) s =
        .next (s.withReceiver p { s.receiver p with crc := min ((s.receiver p).crc + 1) 65535
                                                    badRun := (s.receiver p).badRun + 1 }))
      ∧ (∀ a : Arrival, a.Bad → 4 ≤ (s.receiver p).badRun + 1 → exec (.arrival p a) s =
        .next ((s.withReceiver p { s.receiver p with crc := min ((s.receiver p).crc + 1) 65535 }).enterHunt p))

/-- R107 and R108: the receivers. -/
def Obligations.ReceiversCountRuns : Prop :=
  Clause.HuntReceiverCountsGoodRun
    ∧ Clause.SyncReceiverCountsBadRun

/-- R109 and R110: what a port's return and a port's loss change, and the LINK alarm each raises last. -/
def Obligations.SyncChangesRaiseLinkAlarm : Prop :=
  ∀ s : State,
    s.enterSync .north =
        ({ s with north := { s.north with link := .sync, goodRun := 0, badRun := 0 }
                  alarms := s.alarms.map (fun r : AlarmRecord => if r.phase = .sent then { r with phase := .new, resend := .stopped } else r)
                  alertPin := alertOf s.alarms} : State).raise
          { kind := .link, subject := .port .north, value := 1, alert := s.settings.alertLink }
      ∧ s.enterSync .south =
        ({ s with south := { s.south with link := .sync, goodRun := 0, badRun := 0 }
                  loops := (s.enterSync .south).loops} : State).raise
          { kind := .link, subject := .port .south, value := 1, alert := s.settings.alertLink }
      ∧ (∀ k : Fin 16, (s.enterSync .south).loops[k] =
          if s.loops[k].state = .disabled then s.loops[k] else { s.loops[k] with pending := true })
      ∧ s.enterHunt .north =
        ({ s with north := { s.north with link := .hunt, goodRun := 0, badRun := 0 }
                  northFifo := [], responses := []
                  alarms := s.alarms.map (fun r : AlarmRecord => { r with resend := .stopped })
                  alertPin := alertOf s.alarms} : State).raise
          { kind := .link, subject := .port .north, value := 0, alert := s.settings.alertLink }
      ∧ s.enterHunt .south =
        ({ s with south := { s.south with link := .hunt, goodRun := 0, badRun := 0 }, southFifo := []} : State).raise
          { kind := .link, subject := .port .south, value := 0, alert := s.settings.alertLink }

/-- R113: the south receiver's dispatch. -/
def Clause.SouthReceiverDispatchesByKind : Prop :=
  ∀ (s : State) (c : Cell) (kind : Nat), s.Reaches .south kind c →
    (kind = 0 ∨ kind = 2 ∨ kind = 3 → exec (.arrival .south (.cell c)) s = .next (s.goodTaken .south))
      ∧ (kind = 1 → exec (.arrival .south (.cell c)) s = .next ((s.goodTaken .south).classify c))
      ∧ (kind = 4 ∨ kind = 5 → exec (.arrival .south (.cell c)) s =
          .next ((s.goodTaken .south).handNorth (relayNorth c)))
      ∧ (6 ≤ kind → exec (.arrival .south (.cell c)) s = .next ((s.goodTaken .south).handNorth c))

/-- R115, R116 and R117: the north receiver's dispatch of every kind but COMMAND. -/
def Clause.NorthReceiverDispatchesByKind : Prop :=
  ∀ (s : State) (c : Cell) (kind : Nat), s.Reaches .north kind c →
    (kind = 0 ∨ kind = 1 ∨ kind = 4 ∨ kind = 5 → exec (.arrival .north (.cell c)) s = .next (s.goodTaken .north))
      ∧ (kind = 3 → c.hop = 0 → s.requests.length < 4 → exec (.arrival .north (.cell c)) s =
          .next { s.goodTaken .north with requests := s.requests ++ [c] })
      ∧ (kind = 3 → c.hop = 0 → 4 ≤ s.requests.length → exec (.arrival .north (.cell c)) s =
          .next { s.goodTaken .north with reqDiscards := min (s.reqDiscards + 1) 65535 })
      ∧ (kind = 3 → c.hop ≠ 0 → exec (.arrival .north (.cell c)) s =
          .next ((s.goodTaken .north).handSouth (relaySouth c)))
      ∧ (6 ≤ kind → exec (.arrival .north (.cell c)) s = .next ((s.goodTaken .north).handSouth c))

/-- Sections 7.2 and 7.5: what becomes of a cell handed to a FIFO. -/
def Clause.FifosTakeCountOrDiscard : Prop :=
  ∀ (s : State) (c : Cell),
    (s.north.link = .hunt → s.handNorth c = s)
      ∧ (s.north.link = .sync → s.northFifo.length < 32 → s.handNorth c = { s with northFifo := s.northFifo ++ [c] })
      ∧ (s.north.link = .sync → 32 ≤ s.northFifo.length → s.handNorth c =
          { s with northOverflow := min (s.northOverflow + 1) 65535 })
      ∧ (s.south.link = .hunt → s.handSouth c = s)
      ∧ (s.south.link = .sync → s.southFifo.length < 16 → s.handSouth c = { s with southFifo := s.southFifo ++ [c] })
      ∧ (s.south.link = .sync → 16 ≤ s.southFifo.length → s.handSouth c =
          { s with southOverflow := min (s.southOverflow + 1) 65535 })

/-- R113, R115, R116 and R117, with what becomes of a cell at a FIFO (sections 7.2 and 7.5). -/
def Obligations.ReceiversDispatchByKind : Prop :=
  Clause.SouthReceiverDispatchesByKind
    ∧ Clause.NorthReceiverDispatchesByKind
    ∧ Clause.FifosTakeCountOrDiscard

/-- R130: the actuator guard, where no two loops outside DISABLED share an actuator key (R77). -/
def Obligations.ActuatorGuardKeepsCommands : Prop :=
  ∀ (s : State) (c : Cell), s.Reaches .north 2 c → s.ActuatorsDistinct →
    (∀ k : Fin 16, s.loops[k].state ≠ .disabled → s.loops[k].state ≠ .manual →
        (⟨c.b1.toNat % 64, c.b2.toNat / 32⟩ : Key) = ⟨s.loops[k].cfg.actNode, s.loops[k].cfg.actPoint⟩ →
        exec (.arrival .north (.cell c)) s =
          .next { s.goodTaken .north with
                  loops := s.loops.set k { s.loops[k] with guardCount := min (s.loops[k].guardCount + 1) 255 } })
      ∧ ((∀ k : Fin 16, s.loops[k].state ≠ .disabled → s.loops[k].state ≠ .manual →
          (⟨c.b1.toNat % 64, c.b2.toNat / 32⟩ : Key) ≠ ⟨s.loops[k].cfg.actNode, s.loops[k].cfg.actPoint⟩) →
        exec (.arrival .north (.cell c)) s = .next ((s.goodTaken .north).handSouth c))

/-! ### The Classifier -/

/-- R9: a SAMPLE in PASS mode. -/
def Clause.PassModeForwardsSampleUnchanged : Prop :=
  ∀ (s : State) (c : Cell), s.Reaches .south 1 c → s.settings.mode = .pass →
    exec (.arrival .south (.cell c)) s = .next ((s.goodTaken .south).handNorth c)

/-- R14: the Miss List at a miss (the key of no valid entry, ACTIVE mode), and under every arrival in PASS mode; with it
MISSES and the disposal of the cell (sections 1.5 and 1.7). -/
def Clause.MissUpdatesMissList : Prop :=
  (∀ (s : State) (c : Cell) (list : List MissRecord),
      s.Reaches .south 1 c → s.settings.mode = .active → s.MissSound →
      (∀ n : Fin 128, s.channels[n].valid = true → s.channels[n].cfg.key ≠ c.key) →
      ((∃ young old hits, s.missList = young ++ { key := c.key, hits := hits } :: old
          ∧ list = { key := c.key, hits := min (hits + 1) 255 } :: (young ++ old))
        ∨ ((∀ r ∈ s.missList, r.key ≠ c.key) ∧ s.missList.length < 8 ∧ list = { key := c.key, hits := 1 } :: s.missList)
        ∨ ((∀ r ∈ s.missList, r.key ≠ c.key)
          ∧ ∃ front oldest, s.missList = front ++ [oldest] ∧ front.length = 7 ∧ list = { key := c.key, hits := 1 } :: front)) →
      let missed := { s.goodTaken .south with missList := list, misses := min (s.misses + 1) 65535 }
      exec (.arrival .south (.cell c)) s =
        .next (match s.settings.missPolicy with
          | .forward => missed.handNorth c
          | .drop => missed))
    ∧ ∀ (s t : State) (p : Port) (a : Arrival), s.settings.mode = .pass → exec (.arrival p a) s = .next t →
      t.missList = s.missList

/-- R9 and R14: samples that meet no entry. -/
def Obligations.SamplesPassOrMiss : Prop :=
  Clause.PassModeForwardsSampleUnchanged
    ∧ Clause.MissUpdatesMissList

/-- R6: the key of a sample and the lookup, where no two valid entries share a key (R5). -/
def Obligations.LookupFindsTheValidEntry : Prop :=
  ∀ s : State, s.KeysDistinct →
    (∀ c : Cell, c.key = ⟨c.b1.toNat % 64, c.b2.toNat / 32⟩)
      ∧ (∀ (key : Key) (n : Fin 128), s.lookup key = some n ↔
          s.channels[n].valid = true ∧ (⟨s.channels[n].cfg.node, s.channels[n].cfg.point⟩ : Key) = key)
      ∧ (∀ key : Key, s.lookup key = none ↔
          ∀ n : Fin 128, s.channels[n].valid = true → (⟨s.channels[n].cfg.node, s.channels[n].cfg.point⟩ : Key) ≠ key)
      ∧ (s.ChannelsSound → ∀ point : Nat, s.lookup ⟨0, point⟩ = none)

/-- R18: the conditioned value is the exact quotient rounded toward minus infinity, and saturated. -/
def Obligations.ConditionedValueIsFlooredAndSaturated : Prop :=
  ∀ (cfg : ChannelConfig) (raw : Int),
    cfg.condition raw = max (-32768) (min 32767 ⌊(((raw + cfg.offset) * cfg.gain : Int) : ℚ) / 256⌋)
      ∧ (cfg.gain = 256 → cfg.offset = 0 → -32768 ≤ raw → raw ≤ 32767 → cfg.condition raw = raw)
      ∧ (cfg.gain = 0 → cfg.condition raw = 0)

/-- Section 1.4: the four steps of the taking of a hit, in order. -/
def Clause.HitTakesSampleInFourSteps : Prop :=
  ∀ (s : State) (c : Cell) (n : Fin 128), s.Reaches .south 1 c → s.settings.mode = .active →
    (s.goodTaken .south).lookup c.key = some n →
    let e := s.channels[n]
    let v := e.cfg.condition c.value
    let step1 := { s.goodTaken .south with
                   channels := s.channels.set n { e with dyn := { e.dyn with last := some v, lastRaw := some c.value } } }
    let step2 := (step1.evalSample n v).sourceSampleEvent n
    let step3 := step2.updateChannel n (fun e =>
      if e.cfg.silence = 0 then e else { e with deadline := some e.cfg.silence })
    exec (.arrival .south (.cell c)) s = .next (step3.forward n e.dyn.state v c)

/-- R19, and the frame of a hit: LAST and LAST_RAW are those of the sample, every other entry and every static part is
unchanged, and nothing of the Miss List, the settings, the session or the south port is touched. -/
def Clause.HitRecordsSampleAndTouchesOneEntry : Prop :=
  ∀ (s : State) (c : Cell) (n : Fin 128), s.Reaches .south 1 c → s.settings.mode = .active →
    (s.goodTaken .south).lookup c.key = some n →
    ∃ t, exec (.arrival .south (.cell c)) s = .next t
      ∧ t.channels[n].dyn.last = some (s.channels[n].cfg.condition c.value) ∧ t.channels[n].dyn.lastRaw = some c.value
      ∧ t.channels[n].valid = s.channels[n].valid ∧ t.channels[n].cfg = s.channels[n].cfg
      ∧ t.channels[n].revision = s.channels[n].revision
      ∧ (∀ m : Fin 128, m ≠ n → t.channels[m] = s.channels[m])
      ∧ (∀ k : Fin 16, s.loops[k].cfg.source ≠ n → t.loops[k] = s.loops[k])
      ∧ t = { s with
              south := { s.south with badRun := 0 }
              channels := t.channels, loops := t.loops, alarms := t.alarms, nextSeq := t.nextSeq, alertPin := t.alertPin
              northFifo := t.northFifo, northOverflow := t.northOverflow }

/-- R19 and section 1.4: the taking of a sample that hits an entry. -/
def Obligations.HitTakesSample : Prop :=
  Clause.HitTakesSampleInFourSteps
    ∧ Clause.HitRecordsSampleAndTouchesOneEntry

/-! ### Evaluation -/

/-- R35, R36 and R37: the evaluation out of the states that are not tripped; in UNSEEN it is that of NORMAL, and in STALE too,
after the RESUMED alarm (section 3.5). -/
def Obligations.EvaluationFollowsLimits : Prop :=
  ∀ (s : State) (n : Fin 128) (v : Int), s.channels[n].cfg.low < s.channels[n].cfg.high →
    let e := s.channels[n]
    let resumed := s.raise { kind := .resumed, subject := .channel n, value := v, alert := e.cfg.alert }
    let set (b : State) (st : ChannelState) (run : Nat) : State :=
      { b with channels := s.channels.set n { e with dyn := { e.dyn with state := st, run := run } } }
    (∀ b, (e.dyn.state = .unseen ∨ e.dyn.state = .normal) ∧ b = s ∨ e.dyn.state = .stale ∧ b = resumed →
        (v > e.cfg.high → e.cfg.trips ≤ 1 → s.evalSample n v = b.trip n .high .high v)
          ∧ (v > e.cfg.high → 1 < e.cfg.trips → s.evalSample n v = set b .highPend 1)
          ∧ (v < e.cfg.low → e.cfg.trips ≤ 1 → s.evalSample n v = b.trip n .low .low v)
          ∧ (v < e.cfg.low → 1 < e.cfg.trips → s.evalSample n v = set b .lowPend 1)
          ∧ (e.cfg.low ≤ v → v ≤ e.cfg.high → s.evalSample n v = set b .normal 0))
      ∧ (e.dyn.state = .highPend →
        (v > e.cfg.high → e.cfg.trips ≤ e.dyn.run + 1 → s.evalSample n v = s.trip n .high .high v)
          ∧ (v > e.cfg.high → e.dyn.run + 1 < e.cfg.trips → s.evalSample n v = set s .highPend (e.dyn.run + 1))
          ∧ (v < e.cfg.low → e.cfg.trips ≤ 1 → s.evalSample n v = s.trip n .low .low v)
          ∧ (v < e.cfg.low → 1 < e.cfg.trips → s.evalSample n v = set s .lowPend 1)
          ∧ (e.cfg.low ≤ v → v ≤ e.cfg.high → s.evalSample n v = set s .normal 0))
      ∧ (e.dyn.state = .lowPend →
        (v < e.cfg.low → e.cfg.trips ≤ e.dyn.run + 1 → s.evalSample n v = s.trip n .low .low v)
          ∧ (v < e.cfg.low → e.dyn.run + 1 < e.cfg.trips → s.evalSample n v = set s .lowPend (e.dyn.run + 1))
          ∧ (v > e.cfg.high → e.cfg.trips ≤ 1 → s.evalSample n v = s.trip n .high .high v)
          ∧ (v > e.cfg.high → 1 < e.cfg.trips → s.evalSample n v = set s .highPend 1)
          ∧ (e.cfg.low ≤ v → v ≤ e.cfg.high → s.evalSample n v = set s .normal 0))

/-- R38 and R39: the evaluation of a tripped channel. -/
def Clause.TrippedChannelWaitsForClearRun : Prop :=
  ∀ (s : State) (n : Fin 128) (v : Int), s.channels[n].dyn.state = .high ∨ s.channels[n].dyn.state = .low →
    let e := s.channels[n]
    let run := min (e.dyn.run + 1) e.cfg.clears
    let set (run : Nat) (met : Bool) : State :=
      { s with channels := s.channels.set n { e with dyn := { e.dyn with run := run, clearMet := met } } }
    let isClear := (e.dyn.state = .high ∧ v ≤ e.cfg.high - e.cfg.hyst) ∨ (e.dyn.state = .low ∧ v ≥ e.cfg.low + e.cfg.hyst)
    (isClear → run < e.cfg.clears → s.evalSample n v = set run e.dyn.clearMet)
      ∧ (isClear → run = e.cfg.clears → e.cfg.mode = .compare ∨ e.dyn.acked = true →
          s.evalSample n v = s.returnToNormal n v)
      ∧ (isClear → run = e.cfg.clears → e.cfg.mode = .latch → e.dyn.acked = false →
          s.evalSample n v = set run true)
      ∧ (¬isClear → s.evalSample n v = set 0 false)

/-- Section 3.3: a LATCH channel leaves HIGH or LOW for NORMAL by a sample only with ACKED yes. -/
def Clause.LatchedTripWaitsForAcknowledgement : Prop :=
  ∀ (s t : State) (p : Port) (a : Arrival) (n : Fin 128), exec (.arrival p a) s = .next t →
    s.channels[n].cfg.mode = .latch → s.channels[n].dyn.state = .high ∨ s.channels[n].dyn.state = .low →
    t.channels[n].dyn.state = s.channels[n].dyn.state
      ∨ (t.channels[n].dyn.state = .normal ∧ s.channels[n].dyn.acked = true)

/-- R38 and R39: tripped channels. -/
def Obligations.TrippedChannelsClearByRuns : Prop :=
  Clause.TrippedChannelWaitsForClearRun
    ∧ Clause.LatchedTripWaitsForAcknowledgement

/-- R34 and R40: a trip and a return to NORMAL; TRIP_SEQ is what the queue reports of the alarm's admission. -/
def Obligations.TripTakesSeqFromAdmission : Prop :=
  ∀ (s : State) (n : Fin 128) (v : Int),
    let e := s.channels[n]
    let alarm (kind : AlarmKind) : Alarm := { kind := kind, subject := .channel n, value := v, alert := e.cfg.alert }
    (∀ st kind, (st = ChannelState.high ∧ kind = AlarmKind.high) ∨ (st = .low ∧ kind = .low) →
        s.trip n st kind v =
          { (s.takeAlarm (alarm kind)).1 with
            channels := s.channels.set n
              { e with dyn := { e.dyn with
                                state := st, run := 0, acked := false, clearMet := false
                                tripSeq := match (s.takeAlarm (alarm kind)).2 with
                                  | .appended seq => some seq
                                  | .coalesced seq => some seq
                                  | .lost => none } } })
      ∧ s.returnToNormal n v =
          { s.raise (alarm .cleared) with
            channels := s.channels.set n
              { e with dyn := { e.dyn with
                                state := .normal, run := 0, acked := false, clearMet := false, tripSeq := none } } }

/-- R45: the expiry of a deadline; one that finds the entry in STALE leaves only the timer changed (log 13). A deadline that does
not stand at its count does not expire: one that is stopped, or that a sample, a re-install or a warm reset has started again
since (R47, R50, R180; log 3). -/
def Clause.DeadlineExpiryMakesStale : Prop :=
  ∀ (s : State) (n : Fin 128), s.coldHeld = false →
    (s.channels[n].deadline = some 0 → s.channels[n].dyn.state ≠ .stale →
        ∃ t, exec (.deadlineExpiry n) s = .next t
          ∧ t = { s.raise { kind := .stale, subject := .channel n, value := s.channels[n].dyn.last.getD 0
                            alert := s.channels[n].cfg.alert } with
                  loops := t.loops
                  channels := s.channels.set n
                    { s.channels[n] with
                      deadline := none
                      dyn := { s.channels[n].dyn with
                               state := .stale, run := 0, acked := false, clearMet := false, tripSeq := none } } }
          ∧ ∀ k : Fin 16, t.loops[k] =
              if s.loops[k].cfg.source = n ∧ s.loops[k].state.automatic = true then
                { s.loops[k] with
                  state := .held, drive := s.loops[k].cfg.failsafeDuty
                  pending := s.loops[k].pending || decide (s.loops[k].drive ≠ s.loops[k].cfg.failsafeDuty)
                  stepTimer := none, stopTimer := none, satCount := 0 }
              else s.loops[k])
      ∧ (s.channels[n].deadline = some 0 → s.channels[n].dyn.state = .stale →
        exec (.deadlineExpiry n) s = .next { s with channels := s.channels.set n { s.channels[n] with deadline := none } })
      ∧ (s.channels[n].deadline ≠ some 0 → exec (.deadlineExpiry n) s = .next s)

/-- Section 2.4: the expiry of a forward refresh timer; one that is stopped, or started again by a forward since it reached its
count, does not expire (log 3). -/
def Clause.ForwardRefreshExpiryMarksExpired : Prop :=
  ∀ (s : State) (n : Fin 128), s.coldHeld = false →
    (s.channels[n].dyn.forward = .running 0 → exec (.forwardRefreshExpiry n) s =
        .next { s with
                channels := s.channels.set n
                  { s.channels[n] with dyn := { s.channels[n].dyn with forward := .expired } } })
      ∧ (s.channels[n].dyn.forward ≠ .running 0 → exec (.forwardRefreshExpiry n) s = .next s)

/-- R45, R47 and section 2.4: the expiries of an entry (log 3, 13). -/
def Obligations.ChannelTimersExpire : Prop :=
  Clause.DeadlineExpiryMakesStale
    ∧ Clause.ForwardRefreshExpiryMarksExpired

/-! ### The Alarm Queue -/

/-- R56: coalescing looks at the youngest record of the alarm's subject only. -/
def Clause.AlarmCoalescesIntoYoungestRecord : Prop :=
  ∀ (s : State) (a : Alarm) (older younger : List AlarmRecord) (r : AlarmRecord),
    s.alarms = older ++ r :: younger → r.subject = a.subject → (∀ x ∈ younger, x.subject ≠ a.subject) →
    r.kind = a.kind → r.phase = .new → r.attempts = 0 →
    let q := older ++ { r with value := a.value, alert := r.alert || a.alert } :: younger
    s.takeAlarm a = ({ s with alarms := q, alertPin := alertOf q }, .coalesced r.seq)

/-- R57 and R58: an alarm that no record absorbs is appended below 31 records and lost from 31 on. -/
def Clause.AlarmIsAppendedOrLost : Prop :=
  ∀ (s : State) (a : Alarm),
    (∀ older r younger, s.alarms = older ++ r :: younger → r.subject = a.subject →
        (∀ x ∈ younger, x.subject ≠ a.subject) → r.kind ≠ a.kind ∨ r.phase ≠ .new ∨ r.attempts ≠ 0) →
    let append (kind : AlarmKind) (subject : Subject) (value : Int) : State :=
      let q := s.alarms ++ [{ seq := s.takeSeq, kind := kind, subject := subject, value := value, alert := a.alert
                              phase := .new, attempts := 0, resend := .stopped }]
      { s with alarms := q, alertPin := alertOf q, nextSeq := (s.takeSeq + 1) % 256 }
    (s.alarms.length < 31 → s.takeAlarm a = (append a.kind a.subject a.value, .appended s.takeSeq))
      ∧ (31 ≤ s.alarms.length → (∀ r ∈ s.alarms, r.kind ≠ .lost) →
          s.takeAlarm a = (append .lost .noSubject 1, .lost))
      ∧ (∀ older lost younger, 31 ≤ s.alarms.length → s.alarms = older ++ lost :: younger → lost.kind = .lost →
          (∀ x ∈ older ++ younger, x.kind ≠ .lost) →
          let grown := { lost with value := min (lost.value + 1) 32767, alert := lost.alert || a.alert }
          let q := older ++ (if lost.phase = .sent then { grown with phase := .new, attempts := 0, resend := .stopped }
            else grown) :: younger
          s.takeAlarm a = ({ s with alarms := q, alertPin := alertOf q }, .lost))

/-- R59: the SEQ a record takes is the first from NEXT_SEQ on that no record holds. -/
def Clause.RecordTakesFirstFreeSeq : Prop :=
  ∀ s : State, s.alarms.length ≤ 31 → s.nextSeq ≤ 255 →
    (∃ j, j < 32 ∧ s.takeSeq = (s.nextSeq + j) % 256 ∧ (∀ i < j, ∃ r ∈ s.alarms, r.seq = (s.nextSeq + i) % 256))
      ∧ (∀ r ∈ s.alarms, r.seq ≠ s.takeSeq)
      ∧ ∀ a : Alarm, (s.appendAlarm a).nextSeq = (s.takeSeq + 1) % 256

/-- R56 to R59: admission to the Alarm Queue. -/
def Obligations.AlarmsAreAdmittedInOrder : Prop :=
  Clause.AlarmCoalescesIntoYoungestRecord
    ∧ Clause.AlarmIsAppendedOrLost
    ∧ Clause.RecordTakesFirstFreeSeq

/-- R60, R62, R123 and R124: what the north slot sends, and what the sending changes. -/
def Obligations.NorthSlotSendsInOrder : Prop :=
  ∀ s : State, s.coldHeld = false →
    (s.north.link = .hunt → exec .northSlot s = .next { s with northSent := some fillCell })
      ∧ (∀ c rest, s.north.link = .sync → s.northFifo = c :: rest → 24 ≤ s.northFifo.length →
          exec .northSlot s = .next { s with northFifo := rest, northSent := some c })
      ∧ (s.north.link = .sync → s.northFifo.length < 24 →
        (∀ c rest, s.responses = c :: rest →
            exec .northSlot s = .next { s with responses := rest, northSent := some c })
          ∧ (s.responses = [] →
            (∀ older r younger, s.alarms = older ++ r :: younger →
                (r.phase = .new ∧ ∀ x ∈ older, x.phase ≠ .new)
                  ∨ (r.phase = .sent ∧ r.resend = .due ∧ (∀ x ∈ s.alarms, x.phase ≠ .new)
                    ∧ ∀ x ∈ older, x.resend ≠ .due) →
                let sent := { r with attempts := min (r.attempts + 1) 15, phase := .sent
                                     resend := .running s.settings.resend }
                exec .northSlot s =
                  .next { s with alarms := older ++ sent :: younger, alertPin := alertOf s.alarms
                                 northSent := some (alarmCell sent) })
              ∧ ((∀ r ∈ s.alarms, r.phase = .sent ∧ r.resend ≠ .due) →
                (∀ c rest, s.northFifo = c :: rest →
                    exec .northSlot s = .next { s with northFifo := rest, northSent := some c })
                  ∧ (s.northFifo = [] → exec .northSlot s = .next { s with northSent := some fillCell }))))

/-- R63: the expiry of a resend timer, where no two records share a SEQ (R54); none happens while the north receiver is in
HUNT (section 4.4, log 18), and a timer that does not stand at its count does not expire (log 3). -/
def Obligations.ResendExpiryAbandonsOrMakesDue : Prop :=
  ∀ (s : State) (seq : Nat), s.coldHeld = false → (s.alarms.map (·.seq)).Nodup →
    (∀ older r younger, s.north.link = .sync → s.alarms = older ++ r :: younger → r.seq = seq → r.resend = .running 0 →
        (1 ≤ s.settings.retry → s.settings.retry ≤ r.attempts →
            ∃ t, exec (.resendTimerExpiry seq) s = .next t
              ∧ t = { s with alarms := older ++ younger, alertPin := alertOf (older ++ younger)
                             abandoned := min (s.abandoned + 1) 65535, channels := t.channels }
              ∧ ∀ n : Fin 128, t.channels[n] =
                  if s.channels[n].dyn.tripSeq = some seq then
                    { s.channels[n] with dyn := { s.channels[n].dyn with tripSeq := none } }
                  else s.channels[n])
          ∧ (s.settings.retry = 0 ∨ r.attempts < s.settings.retry →
            exec (.resendTimerExpiry seq) s =
              .next { s with alarms := older ++ { r with resend := .due } :: younger, alertPin := alertOf s.alarms }))
      ∧ (s.north.link = .hunt ∨ (∀ r ∈ s.alarms, r.seq = seq → r.resend ≠ .running 0) →
          exec (.resendTimerExpiry seq) s = .next s)

/-! ### The south transmitter -/

/-- R127 and R128, with the serving of section 5.7: what the south slot sends. -/
def Obligations.SouthSlotSharesFairly : Prop :=
  ∀ s : State, s.coldHeld = false →
    let serve (k : Fin 16) : State :=
      { s with
        loops := s.loops.set k { s.loops[k] with pending := false, refreshTimer := orStopped s.loops[k].cfg.refresh }
        lastServed := k, southSent := some (s.loops[k].commandCell k) }
    let next (k : Fin 16) : Prop :=
      s.loops[k].pending = true
        ∧ ((s.lastServed < k ∧ ∀ j : Fin 16, s.lastServed < j → j < k → s.loops[j].pending = false)
          ∨ ((∀ j : Fin 16, s.lastServed < j → s.loops[j].pending = false)
            ∧ ∀ j : Fin 16, j < k → s.loops[j].pending = false))
    let nonePending := ∀ k : Fin 16, s.loops[k].pending = false
    (s.south.link = .hunt → exec .southSlot s = .next { s with southSent := some fillCell })
      ∧ (s.south.link = .sync →
        (∀ c rest, s.southFifo = c :: rest →
            (∀ k, next k → s.lastWinner = .passThrough → exec .southSlot s = .next { serve k with lastWinner := .loops })
              ∧ ((∃ k, next k) → s.lastWinner = .loops → exec .southSlot s =
                  .next { s with southFifo := rest, southSent := some c, lastWinner := .passThrough })
              ∧ (nonePending → exec .southSlot s = .next { s with southFifo := rest, southSent := some c }))
          ∧ (s.southFifo = [] →
            (∀ k, next k → exec .southSlot s = .next (serve k))
              ∧ (nonePending → exec .southSlot s = .next { s with southSent := some fillCell })))

/-! ### Cruise loops -/

/-- R80: the demand. -/
def Obligations.DemandComparesErrorWithTolerance : Prop :=
  ∀ (cfg : LoopConfig) (last : Int),
    let error : Int := match cfg.sense with
      | .rising => last - cfg.target
      | .falling => cfg.target - last
    (cfg.demand last = .up ↔ (cfg.tolerance : Int) < error)
      ∧ (cfg.demand last = .down ↔ error < -(cfg.tolerance : Int))
      ∧ (cfg.demand last = .hold ↔ -(cfg.tolerance : Int) ≤ error ∧ error ≤ cfg.tolerance)

/-- Section 5.4: a step whose source is STALE or has no LAST puts a loop in an automatic state into HELD. A step timer that
does not stand at its count does not expire (log 3). -/
def Clause.StepWithSilentSourceHolds : Prop :=
  ∀ (s : State) (k : Fin 16), s.coldHeld = false →
    let l := s.loops[k]
    let source := s.channels[l.cfg.source]
    (l.stepTimer = some 0 → source.dyn.state = .stale ∨ source.dyn.last = none → l.state.automatic = true →
        exec (.step k) s =
          .next { s with
                  loops := s.loops.set k
                    { l with
                      state := .held, drive := l.cfg.failsafeDuty
                      pending := l.pending || decide (l.drive ≠ l.cfg.failsafeDuty)
                      stepTimer := none, stopTimer := none, satCount := 0 } })
      ∧ (l.stepTimer ≠ some 0 → exec (.step k) s = .next s)

/-- R82 and R86: a step in STOPPED and in STOP_WAIT. -/
def Clause.StepInStoppedAndStopWait : Prop :=
  ∀ (s : State) (k : Fin 16) (last : Int), s.coldHeld = false →
    let l := s.loops[k]
    l.stepTimer = some 0 → s.channels[l.cfg.source].dyn.state ≠ .stale → s.channels[l.cfg.source].dyn.last = some last →
    let after (l' : Loop) : Host.Outcome State Fault Refusal := .next { s with loops := s.loops.set k l' }
    let raised := min (l.cfg.stopDuty + l.cfg.step) l.cfg.maxDuty
    (l.state = .stopped → l.cfg.demand last = .up → exec (.step k) s =
        after { l with state := .starting, drive := l.cfg.startDuty
                       pending := l.pending || decide (l.drive ≠ l.cfg.startDuty), stepTimer := s.paced l.cfg.upInterval })
      ∧ (l.state = .stopped → l.cfg.demand last ≠ .up → exec (.step k) s =
        after { l with stepTimer := s.paced l.cfg.upInterval })
      ∧ (l.state = .stopWait → l.cfg.demand last = .up → exec (.step k) s =
        after { l with state := .running, drive := raised, pending := l.pending || decide (l.drive ≠ raised)
                       stopTimer := none, stepTimer := s.paced l.cfg.downInterval })
      ∧ (l.state = .stopWait → l.cfg.demand last ≠ .up → exec (.step k) s =
        after { l with stepTimer := s.paced l.cfg.downInterval })

/-- R82 and R86, with section 5.4 for a silent source: steps in the states but RUNNING and STARTING (log 3). -/
def Obligations.StepOutsideRunning : Prop :=
  Clause.StepWithSilentSourceHolds
    ∧ Clause.StepInStoppedAndStopWait

/-- R83, R84 and R85: a step in RUNNING, and in STARTING, which is taken as one in RUNNING. -/
def Obligations.StepInRunningRegulates : Prop :=
  ∀ (s : State) (k : Fin 16) (last : Int), s.coldHeld = false →
    let l := s.loops[k]
    l.stepTimer = some 0 → s.channels[l.cfg.source].dyn.state ≠ .stale → s.channels[l.cfg.source].dyn.last = some last →
    l.state = .running ∨ l.state = .starting →
    let after (l' : Loop) : State := { s with loops := s.loops.set k l' }
    let moved (drive : Nat) : Loop :=
      { l with state := .running, drive := drive, pending := l.pending || decide (l.drive ≠ drive), satCount := 0 }
    let refused (count : Nat) : State :=
      after { l with state := .running, satCount := count, stepTimer := s.paced l.cfg.upInterval }
    let limit : Alarm := { kind := .loopLimit, subject := .loop k, value := l.drive, alert := true }
    (l.cfg.demand last = .up → l.drive < l.cfg.maxDuty → exec (.step k) s =
        .next (after { moved (min (l.drive + l.cfg.step) l.cfg.maxDuty) with stepTimer := s.paced l.cfg.upInterval }))
      ∧ (l.cfg.demand last = .up → l.cfg.maxDuty ≤ l.drive →
        (l.satCount + 1 < l.cfg.satLimit → exec (.step k) s = .next (refused (l.satCount + 1)))
          ∧ (l.satCount + 1 = l.cfg.satLimit → exec (.step k) s = .next ((refused l.cfg.satLimit).raise limit))
          ∧ (l.satCount = l.cfg.satLimit → exec (.step k) s = .next (refused l.satCount))
          ∧ (l.cfg.satLimit < l.satCount → exec (.step k) s = .next ((refused l.cfg.satLimit).raise limit)))
      ∧ (l.cfg.demand last = .down → l.cfg.stopDuty < l.drive → exec (.step k) s =
        .next (after { moved (max (l.drive - l.cfg.step) l.cfg.stopDuty) with stepTimer := s.paced l.cfg.downInterval }))
      ∧ (l.cfg.demand last = .down → l.drive ≤ l.cfg.stopDuty → 0 < l.cfg.stopTime → exec (.step k) s =
        .next (after { moved l.drive with state := .stopWait, stopTimer := s.paced l.cfg.stopTime
                                          stepTimer := s.paced l.cfg.downInterval }))
      ∧ (l.cfg.demand last = .down → l.drive ≤ l.cfg.stopDuty → l.cfg.stopTime = 0 → exec (.step k) s =
        .next (after { moved 0 with state := .stopped, stopTimer := none, stepTimer := s.paced l.cfg.downInterval }))
      ∧ (l.cfg.demand last = .hold → exec (.step k) s =
        .next (after { moved l.drive with stepTimer := s.paced l.cfg.downInterval }))

/-- Sections 5.4 and 5.7: the expiries of a loop's stop timer and refresh timer; a timer that does not stand at its count does
not expire (log 3). -/
def Obligations.StopAndRefreshTimersExpire : Prop :=
  ∀ (s : State) (k : Fin 16), s.coldHeld = false →
    let l := s.loops[k]
    (l.stopTimer = some 0 → l.state = .stopWait → exec (.stopTimerExpiry k) s =
        .next { s with
                loops := s.loops.set k
                  { l with state := .stopped, drive := 0, pending := true, satCount := 0, stopTimer := none } })
      ∧ (l.stopTimer ≠ some 0 → exec (.stopTimerExpiry k) s = .next s)
      ∧ (l.refreshTimer = some 0 → exec (.refreshTimerExpiry k) s =
        .next { s with loops := s.loops.set k { l with pending := true, refreshTimer := orStopped l.cfg.refresh } })
      ∧ (l.refreshTimer ≠ some 0 → exec (.refreshTimerExpiry k) s = .next s)

/-- R89 and R90: the two source events, handed to every loop whose SOURCE is the entry. -/
def Obligations.SourceEventsHoldAndResume : Prop :=
  ∀ (s : State) (n : Fin 128) (k : Fin 16),
    let l := s.loops[k]
    let drive := if l.cfg.stopDuty ≤ l.cfg.failsafeDuty then min l.cfg.failsafeDuty l.cfg.maxDuty else 0
    (s.sourceStaleEvent n).loops[k] =
        (if l.cfg.source = n ∧ (l.state = .stopped ∨ l.state = .starting ∨ l.state = .running ∨ l.state = .stopWait) then
          { l with state := .held, drive := l.cfg.failsafeDuty
                   pending := l.pending || decide (l.drive ≠ l.cfg.failsafeDuty)
                   stepTimer := none, stopTimer := none, satCount := 0 }
        else l)
      ∧ (s.sourceSampleEvent n).loops[k] =
        (if l.cfg.source = n ∧ l.state = .held then
          { l with state := if l.cfg.stopDuty ≤ l.cfg.failsafeDuty then .running else .stopped
                   drive := drive, pending := l.pending || decide (l.drive ≠ drive), satCount := 0
                   stepTimer := s.paced l.cfg.downInterval }
        else l)
      ∧ s.sourceStaleEvent n = { s with loops := (s.sourceStaleEvent n).loops }
      ∧ s.sourceSampleEvent n = { s with loops := (s.sourceSampleEvent n).loops }

/-- R148: the checks of MANUAL before the loop acts. -/
def Clause.ManualChecksInOrder : Prop :=
  ∀ (s : State) (c : Cell) (rest : List Cell) (i : Instr), s.CanTake c rest → s.session = .opened → c.op = 10 →
    i = (if c.value = -1 then .manualRelease else .manual) →
    let refused (st : Status) : Host.Outcome State Fault Refusal :=
      .next (State.answered { s with requests := rest } c (.plain st))
    (c.space ≠ 1 → exec i s = refused .badSpace)
      ∧ (c.space = 1 → 16 ≤ c.b1.toNat → exec i s = refused .badEntry)
      ∧ (c.space = 1 → c.b1.toNat < 16 → c.value < -1 ∨ 255 < c.value → exec i s = refused .badValue)

/-- R91 and R92: MANUAL with a duty and MANUAL with −1, in an OPEN session. -/
def Clause.ManualDrivesAndReleases : Prop :=
  ∀ (s : State) (c : Cell) (rest : List Cell) (k : Fin 16), s.CanTake c rest → s.session = .opened →
    c.op = 10 → c.space = 1 → c.b1.toNat = k →
    let l := s.loops[k]
    let source := s.channels[l.cfg.source].dyn.state
    let done (l' : Loop) : Host.Outcome State Fault Refusal :=
      .next (State.answered { s with requests := rest, loops := s.loops.set k l' } c (.result l'.drive))
    let refused (st : Status) : Host.Outcome State Fault Refusal :=
      .next (State.answered { s with requests := rest } c (.plain st))
    let entered (st : LoopState) (drive : Nat) (timer : Option Nat) : Loop :=
      { l with state := st, drive := drive, pending := l.pending || decide (l.drive ≠ drive), satCount := 0
               stepTimer := timer }
    (∀ d : Nat, c.value = d → d ≤ 255 → l.state ≠ .disabled → exec .manual s =
        done { entered .manual d none with stopTimer := none })
      ∧ (∀ d : Nat, c.value = d → d ≤ 255 → l.state = .disabled → exec .manual s = refused .badEntry)
      ∧ (c.value = -1 → l.state = .disabled → exec .manualRelease s = refused .badEntry)
      ∧ (c.value = -1 → l.state ≠ .disabled → l.state ≠ .manual → exec .manualRelease s =
        .next (State.answered { s with requests := rest } c (.result l.drive)))
      ∧ (c.value = -1 → l.state = .manual → source = .stale ∨ source = .unseen → exec .manualRelease s =
        done (entered .held l.cfg.failsafeDuty l.stepTimer))
      ∧ (c.value = -1 → l.state = .manual → source ≠ .stale → source ≠ .unseen → l.cfg.stopDuty ≤ l.drive →
        exec .manualRelease s = done (entered .running (min l.drive l.cfg.maxDuty) (s.paced l.cfg.downInterval)))
      ∧ (c.value = -1 → l.state = .manual → source ≠ .stale → source ≠ .unseen → l.drive < l.cfg.stopDuty →
        exec .manualRelease s = done (entered .stopped 0 (s.paced l.cfg.downInterval)))

/-- R91, R92 and the checks of R148: MANUAL. -/
def Obligations.ManualOverridesLoops : Prop :=
  Clause.ManualChecksInOrder
    ∧ Clause.ManualDrivesAndReleases

/-! ### The Agent -/

/-- Section 8.3: no request is taken while the Agent is COMMITTING, the request queue is empty or no response place is free
(log 1: the taking then changes nothing). -/
def Clause.NoTakingWithoutItsConditions : Prop :=
  ∀ (s : State) (i : Instr), i.row ≠ none →
    s.agent ≠ .idle ∨ s.requests = [] ∨ 4 ≤ s.reserved + s.responses.length → exec i s = .next s

/-- Log 1: a taking whose row is not that of the oldest request changes nothing. -/
def Clause.NoRowTakesAnotherRowsRequest : Prop :=
  ∀ (s : State) (i : Instr) (row : RequestRow) (c : Cell) (rest : List Cell), i.row = some row → s.requests = c :: rest →
    row.takes (Request.ofCell c) = false → exec i s = .next s

/-- Section 11.3: the request codes by which the rows take their requests, with the phase, the SPACE or the VALUE that divides a
code's rows; a selector that names neither row of its code is taken by either (log 2). -/
def Clause.RowsTakeByCodeAndSelector : Prop :=
  ∀ c : Cell,
    let takes (row : RequestRow) : Prop := row.takes (Request.ofCell c) = true
    (takes .unknownRequest ↔ c.op = 0 ∨ 14 ≤ c.op)
      ∧ (takes .read ↔ c.op = 1)
      ∧ (takes .openPhase1 ↔ c.op = 2 ∧ c.b6.toNat ≠ 2) ∧ (takes .openPhase2 ↔ c.op = 2 ∧ c.b6.toNat ≠ 1)
      ∧ (takes .close ↔ c.op = 3) ∧ (takes .editLoad ↔ c.op = 4) ∧ (takes .editSet ↔ c.op = 5) ∧ (takes .commit ↔ c.op = 6)
      ∧ (takes .removeChannel ↔ c.op = 7 ∧ c.space ≠ 1) ∧ (takes .removeLoop ↔ c.op = 7 ∧ c.space ≠ 0)
      ∧ (takes .setPart ↔ c.op = 8)
      ∧ (takes .ackAlarm ↔ c.op = 9 ∧ c.space ≠ 0) ∧ (takes .ackChannel ↔ c.op = 9 ∧ c.space ≠ 5)
      ∧ (takes .manual ↔ c.op = 10 ∧ c.value ≠ -1) ∧ (takes .manualRelease ↔ c.op = 10 ∧ c.value = -1)
      ∧ (takes .clearMiss ↔ c.op = 11 ∧ c.space ≠ 3) ∧ (takes .clearPart ↔ c.op = 11 ∧ c.space ≠ 4)
      ∧ (takes .restart ↔ c.op = 12) ∧ (takes .freeze ↔ c.op = 13)

/-- Section 9.3 and log 3: with no COMMIT in flight no scan ends. -/
def Clause.NoScanEndsWithoutCommit : Prop :=
  ∀ s : State, s.agent = .idle → exec .endOfScan s = .next s

/-- Sections 8.3 and 9.3: what the Agent does not take (log 1, 2, 3). -/
def Obligations.NothingIsTakenOutOfTurn : Prop :=
  Clause.NoTakingWithoutItsConditions
    ∧ Clause.NoRowTakesAnotherRowsRequest
    ∧ Clause.RowsTakeByCodeAndSelector
    ∧ Clause.NoScanEndsWithoutCommit

/-- Gates 3 and 4 of section 8.4: NO_SESSION and FROZEN, with no effect but the end of a standing proposal. -/
def Obligations.GatesRefuseWithoutEffect : Prop :=
  ∀ (s : State) (i : Instr) (row : RequestRow) (c : Cell) (rest : List Cell), s.CanTake c rest →
    i.row = some row → row.takes (Request.ofCell c) = true →
    ((4 ≤ c.op ∧ c.op ≤ 8 ∨ 10 ≤ c.op ∧ c.op ≤ 13) → s.session ≠ .opened → exec i s =
        .next (State.answered ({ s with requests := rest } : State).pastGateOne c (.plain .noSession)))
      ∧ ((c.op = 6 ∨ c.op = 7 ∨ c.op = 8) → s.session = .opened → s.frozen = true → exec i s =
        .next (State.answered { s with requests := rest } c (.plain .frozen)))

/-- Section 8.5: READ changes nothing but the queue, the response and the session's timer, and answers what the part holds
past gate 1. -/
def Clause.ReadChangesNothing : Prop :=
  ∀ (s : State) (c : Cell) (rest : List Cell), s.CanTake c rest → c.op = 1 →
    exec .read s =
      .next (State.answered ({ s with requests := rest } : State).pastGateOne c (s.pastGateOne.readReply (Request.ofCell c)))

/-- Gate 2 of section 8.4: a request code outside 1 to 13. -/
def Clause.UnknownCodeIsAnswered : Prop :=
  ∀ (s : State) (c : Cell) (rest : List Cell), s.CanTake c rest → c.op = 0 ∨ 14 ≤ c.op →
    exec .unknownRequest s =
      .next (State.answered ({ s with requests := rest } : State).pastGateOne c (.plain .unknownRequest))

/-- Sections 8.4 and 8.5: the requests that only answer. -/
def Obligations.ReadAndUnknownCodeAnswer : Prop :=
  Clause.ReadChangesNothing
    ∧ Clause.UnknownCodeIsAnswered

/-- A listed field that may be absent, as READ answers it (R142). -/
def Clause.orAbsent : Option Int → Reply
  | some v => .result v
  | none => .plain .absent

/-- R142: READ's checks of SPACE, of ENTRY and of an EMPTY edit buffer, in order. -/
def Clause.ReadRefusesSpaceAndEntry : Prop :=
  ∀ (s : State) (c : Cell),
    let reply := s.readReply (Request.ofCell c)
    (6 ≤ c.space → reply = .plain .badSpace)
      ∧ (c.space = 0 → 128 ≤ c.b1.toNat → reply = .plain .badEntry)
      ∧ (c.space = 1 → 16 ≤ c.b1.toNat → reply = .plain .badEntry)
      ∧ (c.space = 4 → 8 ≤ c.b1.toNat → reply = .plain .badEntry)
      ∧ (c.space = 5 → 32 ≤ c.b1.toNat → reply = .plain .badEntry)
      ∧ (c.space = 2 → s.editBuffer = .empty → reply = .plain .emptyEdit)

/-- The *edit* fields of the channel space (section 11.4), each with its value; any other number is no edit field. -/
def Clause.channelEditReply (cfg : ChannelConfig) (number : Nat) : Reply :=
  match number with
  | 1 => .result cfg.node
  | 2 => .result cfg.point
  | 3 => .result cfg.offset
  | 4 => .result cfg.gain
  | 5 => .result cfg.high
  | 6 => .result cfg.low
  | 7 => .result cfg.hyst
  | 8 => .result cfg.trips
  | 9 => .result cfg.clears
  | 10 => .result (if cfg.mode = .compare then 0 else 1)
  | 11 => .result cfg.policy.code
  | 12 => .result cfg.deadband
  | 13 => .result cfg.refresh
  | 14 => .result cfg.silence
  | 15 => .result (if cfg.alert then 1 else 0)
  | _ => .plain .badField

/-- The *edit* fields of the loop space (section 11.4), each with its value; any other number is no edit field. -/
def Clause.loopEditReply (cfg : LoopConfig) (number : Nat) : Reply :=
  match number with
  | 0 => .result (if cfg.enable then 1 else 0)
  | 1 => .result (cfg.source : Nat)
  | 2 => .result cfg.actNode
  | 3 => .result cfg.actPoint
  | 4 => .result (if cfg.sense = .rising then 0 else 1)
  | 5 => .result cfg.target
  | 6 => .result cfg.tolerance
  | 7 => .result cfg.step
  | 8 => .result cfg.upInterval
  | 9 => .result cfg.downInterval
  | 10 => .result cfg.startDuty
  | 11 => .result cfg.stopDuty
  | 12 => .result cfg.maxDuty
  | 13 => .result cfg.failsafeDuty
  | 14 => .result cfg.stopTime
  | 15 => .result cfg.refresh
  | 16 => .result cfg.satLimit
  | _ => .plain .badField

/-- R143: READ of every number of the channel space and of the loop space. -/
def Clause.ReadAnswersEntryFields : Prop :=
  ∀ (s : State) (c : Cell),
    let reply := s.readReply (Request.ofCell c)
    (∀ n : Fin 128, c.space = 0 → c.b1.toNat = n →
        let e := s.channels[n]
        reply = match c.b6.toNat with
          | 0 => .result (if e.valid then 1 else 0)
          | 16 => .result e.revision
          | 32 => .result e.dyn.state.code
          | 33 => .result e.dyn.run
          | 34 => Clause.orAbsent e.dyn.last
          | 35 => Clause.orAbsent e.dyn.lastRaw
          | 36 => Clause.orAbsent e.dyn.sent
          | 37 => .result (if e.dyn.acked then 1 else 0)
          | 38 => .result (if e.dyn.clearMet then 1 else 0)
          | 39 => match e.dyn.tripSeq with
            | some seq => .result seq
            | none => .plain .absent
          | number => Clause.channelEditReply e.cfg number)
      ∧ ∀ k : Fin 16, c.space = 1 → c.b1.toNat = k →
        let l := s.loops[k]
        reply = match c.b6.toNat with
          | 17 => .result l.revision
          | 32 => .result l.state.code
          | 33 => .result l.drive
          | 34 => .result l.satCount
          | 35 => .result l.guardCount
          | 36 => .result (if l.pending then 1 else 0)
          | number => Clause.loopEditReply l.cfg number

/-- R144: READ of every number of the edit space with the buffer LOADED; an *entry* number, or an *edit* number of the other
space, is BAD_FIELD. -/
def Clause.ReadAnswersEditFields : Prop :=
  ∀ (s : State) (c : Cell), c.space = 2 →
    let reply := s.readReply (Request.ofCell c)
    (∀ cfg, s.editBuffer = .channel cfg →
        reply = if c.b6.toNat = 63 then .result 0 else Clause.channelEditReply cfg c.b6.toNat)
      ∧ ∀ cfg, s.editBuffer = .loop cfg →
        reply = if c.b6.toNat = 63 then .result 1 else Clause.loopEditReply cfg c.b6.toNat

/-- R145: READ of every number of the part space. -/
def Clause.ReadAnswersPartFields : Prop :=
  ∀ (s : State) (c : Cell), c.space = 3 →
    s.readReply (Request.ofCell c) = match c.b6.toNat with
      | 0 => .result 16680
      | 1 => .result 1
      | 2 => .result (if s.settings.mode = .pass then 0 else 1)
      | 3 => .result (if s.settings.missPolicy = .forward then 0 else 1)
      | 4 => .result s.settings.resend
      | 5 => .result s.settings.retry
      | 6 => .result s.settings.sessionTimeout
      | 7 => .result (if s.settings.alertLink then 1 else 0)
      | 8 => .result (if s.frozen then 1 else 0)
      | 9 => .result s.session.code
      | 10 => .result (if s.north.link = .hunt then 0 else 1)
      | 11 => .result (if s.south.link = .hunt then 0 else 1)
      | 12 => .result s.north.crc
      | 13 => .result s.south.crc
      | 14 => .result s.northOverflow
      | 15 => .result s.southOverflow
      | 16 => .result s.misses
      | 17 => .result s.reqDiscards
      | 18 => .result s.abandoned
      | 19 => .result s.alarms.length
      | 20 => .result s.nextSeq
      | _ => .plain .badField

/-- R146: READ of a position of the Miss List and of the Alarm Queue; a position that holds no record is NOT_FOUND, after the
field number has been judged. -/
def Clause.ReadAnswersRecordFields : Prop :=
  ∀ (s : State) (c : Cell),
    let reply := s.readReply (Request.ofCell c)
    (c.space = 4 → c.b1.toNat < 8 →
        (3 ≤ c.b6.toNat → reply = .plain .badField)
          ∧ (c.b6.toNat < 3 → s.missList.length ≤ c.b1.toNat → reply = .plain .notFound)
          ∧ ∀ r, s.missList[c.b1.toNat]? = some r →
            (c.b6.toNat = 0 → reply = .result r.key.node)
              ∧ (c.b6.toNat = 1 → reply = .result r.key.point)
              ∧ (c.b6.toNat = 2 → reply = .result r.hits))
      ∧ (c.space = 5 → c.b1.toNat < 32 →
        (7 ≤ c.b6.toNat → reply = .plain .badField)
          ∧ (c.b6.toNat < 7 → s.alarms.length ≤ c.b1.toNat → reply = .plain .notFound)
          ∧ ∀ r, s.alarms[c.b1.toNat]? = some r →
            (c.b6.toNat = 0 → reply = .result r.seq)
              ∧ (c.b6.toNat = 1 → reply = .result r.kind.code)
              ∧ (c.b6.toNat = 2 → reply = match r.subject with
                | .channel n => .result (n : Nat)
                | .loop k => .result (k : Nat)
                | .port .north => .result 0
                | .port .south => .result 1
                | .noSubject => .plain .absent)
              ∧ (c.b6.toNat = 3 → reply = .result r.value)
              ∧ (c.b6.toNat = 4 → reply = .result (if r.alert then 1 else 0))
              ∧ (c.b6.toNat = 5 → reply = .result (if r.phase = .new then 0 else 1))
              ∧ (c.b6.toNat = 6 → reply = .result r.attempts))

/-- R142 to R146: READ's checks in order, and its answer for every field number of the six spaces. -/
def Obligations.ReadChecksInOrder : Prop :=
  Clause.ReadRefusesSpaceAndEntry
    ∧ Clause.ReadAnswersEntryFields
    ∧ Clause.ReadAnswersEditFields
    ∧ Clause.ReadAnswersPartFields
    ∧ Clause.ReadAnswersRecordFields

/-- R157: OPEN phase 1, and an OPEN whose phase number is neither 1 nor 2 (taken by either row of OPEN, log 2). -/
def Clause.OpenPhaseOneProposes : Prop :=
  ∀ (s : State) (c : Cell) (rest : List Cell), s.CanTake c rest → c.op = 2 →
    let proposal := if s.openCounter < 32767 then s.openCounter + 1 else 1
    (c.b6.toNat = 1 → s.session ≠ .opened → exec .openPhase1 s =
        .next (State.answered
          { s with requests := rest, session := .proposed, openCounter := proposal, proposal := some proposal
                   proposalTimer := some 100 }
          c (.result proposal)))
      ∧ (c.b6.toNat = 1 → s.session = .opened → exec .openPhase1 s =
        .next (State.answered { s with requests := rest } c (.plain .busy)))
      ∧ (c.b6.toNat ≠ 1 → c.b6.toNat ≠ 2 →
        exec .openPhase1 s = .next (State.answered ({ s with requests := rest } : State).pastGateOne c (.plain .badPhase))
          ∧ exec .openPhase2 s = .next (State.answered ({ s with requests := rest } : State).pastGateOne c (.plain .badPhase)))

/-- R158: OPEN phase 2, matching the standing proposal or not; a matching one starts the session timer at its completion. -/
def Clause.OpenPhaseTwoOpensOnMatch : Prop :=
  ∀ (s : State) (c : Cell) (rest : List Cell), s.CanTake c rest → c.op = 2 → c.b6.toNat = 2 →
    (∀ p : Nat, s.session = .proposed → s.proposal = some p → c.value = p → exec .openPhase2 s =
        .next (State.answered
          { s with requests := rest, session := .opened, proposal := none, proposalTimer := none } c (.result p)))
      ∧ ((∀ p : Nat, s.session = .proposed → s.proposal = some p → c.value ≠ p) → exec .openPhase2 s =
        .next (State.answered ({ s with requests := rest } : State).pastGateOne c (.plain .badPhase)))

/-- R157 and R158: OPEN (log 2 for a phase that is neither 1 nor 2). -/
def Obligations.OpenIsATwoPhaseHandshake : Prop :=
  Clause.OpenPhaseOneProposes
    ∧ Clause.OpenPhaseTwoOpensOnMatch

/-- R160: CLOSE, by the state that stood before gate 1. -/
def Clause.CloseEndsTheSession : Prop :=
  ∀ (s : State) (c : Cell) (rest : List Cell), s.CanTake c rest → c.op = 3 →
    (s.session = .opened → exec .close s =
        .next (State.answered
          { s with requests := rest, session := .closed, sessionTimer := none, editBuffer := .empty } c (.plain .ok)))
      ∧ (s.session = .proposed → exec .close s =
        .next (State.answered
          { s with requests := rest, session := .closed, proposal := none, proposalTimer := none } c (.plain .ok)))
      ∧ (s.session = .closed → exec .close s = .next (State.answered { s with requests := rest } c (.plain .noSession)))

/-- R159, and the expiry of the session timer (section 9.1); a timer that does not stand at its count does not expire (log 3). -/
def Clause.SessionTimersClose : Prop :=
  ∀ s : State, s.coldHeld = false →
    (s.proposalTimer = some 0 → exec .proposalTimerExpiry s =
        .next { s with session := .closed, proposal := none, proposalTimer := none })
      ∧ (s.proposalTimer ≠ some 0 → exec .proposalTimerExpiry s = .next s)
      ∧ (s.sessionTimer = some 0 → exec .sessionTimerExpiry s =
        .next { s with session := .closed, sessionTimer := none, editBuffer := .empty })
      ∧ (s.sessionTimer ≠ some 0 → exec .sessionTimerExpiry s = .next s)

/-- R159 and R160, with the session timer of section 9.1 (log 3). -/
def Obligations.SessionEndsByCloseOrTimer : Prop :=
  Clause.CloseEndsTheSession
    ∧ Clause.SessionTimersClose

/-- R163: EDIT_LOAD in an OPEN session. -/
def Clause.EditLoadCopiesTheRecord : Prop :=
  ∀ (s : State) (c : Cell) (rest : List Cell), s.CanTake c rest → s.session = .opened → c.op = 4 →
    (∀ n : Fin 128, c.space = 0 → c.b1.toNat = n → exec .editLoad s =
        .next (State.answered { s with requests := rest, editBuffer := .channel s.channels[n].cfg } c
          (.result s.channels[n].revision)))
      ∧ (∀ k : Fin 16, c.space = 1 → c.b1.toNat = k → exec .editLoad s =
        .next (State.answered { s with requests := rest, editBuffer := .loop s.loops[k].cfg } c
          (.result s.loops[k].revision)))
      ∧ (2 ≤ c.space → exec .editLoad s = .next (State.answered { s with requests := rest } c (.plain .badSpace)))
      ∧ (c.space = 0 ∧ 128 ≤ c.b1.toNat ∨ c.space = 1 ∧ 16 ≤ c.b1.toNat → exec .editLoad s =
        .next (State.answered { s with requests := rest } c (.plain .badEntry)))

/-- R164: EDIT_SET in an OPEN session: the checks before the field, and the answer for each outcome of the field. -/
def Clause.EditSetWritesTheBuffer : Prop :=
  ∀ (s : State) (c : Cell) (rest : List Cell), s.CanTake c rest → s.session = .opened → c.op = 5 →
    let refused (st : Status) : Host.Outcome State Fault Refusal :=
      .next (State.answered { s with requests := rest } c (.plain st))
    (2 ≤ c.space → exec .editSet s = refused .badSpace)
      ∧ (c.space ≤ 1 → s.editBuffer = .empty → exec .editSet s = refused .emptyEdit)
      ∧ (∀ cfg, c.space = 1 → s.editBuffer = .channel cfg → exec .editSet s = refused .wrongSpace)
      ∧ (∀ cfg, c.space = 0 → s.editBuffer = .loop cfg → exec .editSet s = refused .wrongSpace)
      ∧ (∀ cfg, c.space = 0 → s.editBuffer = .channel cfg → exec .editSet s =
          match cfg.write c.b6.toNat c.value with
          | .unlisted => refused .badField
          | .readOnly => refused .readOnly
          | .badValue => refused .badValue
          | .written cfg' =>
            .next (State.answered { s with requests := rest, editBuffer := .channel cfg' } c (.result c.value)))
      ∧ (∀ cfg, c.space = 1 → s.editBuffer = .loop cfg → exec .editSet s =
          match cfg.write c.b6.toNat c.value with
          | .unlisted => refused .badField
          | .readOnly => refused .readOnly
          | .badValue => refused .badValue
          | .written cfg' =>
            .next (State.answered { s with requests := rest, editBuffer := .loop cfg' } c (.result c.value)))

/-- R163 and R164: the edit buffer. -/
def Obligations.EditBufferIsLoadedAndSet : Prop :=
  Clause.EditLoadCopiesTheRecord
    ∧ Clause.EditSetWritesTheBuffer

/-- Section 11.4: a write of a channel field is made exactly when VALUE is in the field's range, and is BAD_VALUE otherwise; an
*entry* number and 63 are READ_ONLY, and no other number is listed. -/
def Clause.ChannelFieldsAreWrittenInRange : Prop :=
  ∀ (cfg : ChannelConfig) (v : Int),
    let ranged (field : Nat) (lo hi : Int) (written : ChannelConfig) : Prop :=
      cfg.write field v = if lo ≤ v ∧ v ≤ hi then .written written else .badValue
    ranged 1 0 63 { cfg with node := v.toNat }
      ∧ ranged 2 0 7 { cfg with point := v.toNat }
      ∧ ranged 3 (-32768) 32767 { cfg with offset := v }
      ∧ ranged 4 (-32768) 32767 { cfg with gain := v }
      ∧ ranged 5 (-32768) 32767 { cfg with high := v }
      ∧ ranged 6 (-32768) 32767 { cfg with low := v }
      ∧ ranged 7 0 32767 { cfg with hyst := v.toNat }
      ∧ ranged 8 1 8 { cfg with trips := v.toNat }
      ∧ ranged 9 1 8 { cfg with clears := v.toNat }
      ∧ ranged 10 0 1 { cfg with mode := if v = 0 then .compare else .latch }
      ∧ ranged 11 0 3
        { cfg with policy := if v = 0 then .raw else if v = 1 then .conditioned else if v = 2 then .onChange else .suppress }
      ∧ ranged 12 0 32767 { cfg with deadband := v.toNat }
      ∧ ranged 13 0 255 { cfg with refresh := v.toNat }
      ∧ ranged 14 0 32767 { cfg with silence := v.toNat }
      ∧ ranged 15 0 1 { cfg with alert := decide (v = 1) }
      ∧ (∀ f, f = 0 ∨ f = 16 ∨ 32 ≤ f ∧ f ≤ 39 ∨ f = 63 → cfg.write f v = .readOnly)
      ∧ ∀ f, (17 ≤ f ∧ f ≤ 31 ∨ 40 ≤ f) ∧ f ≠ 63 → cfg.write f v = .unlisted

/-- Section 11.4: the same of a loop field. -/
def Clause.LoopFieldsAreWrittenInRange : Prop :=
  ∀ (cfg : LoopConfig) (v : Int),
    let ranged (field : Nat) (lo hi : Int) (written : LoopConfig) : Prop :=
      cfg.write field v = if lo ≤ v ∧ v ≤ hi then .written written else .badValue
    ranged 0 0 1 { cfg with enable := decide (v = 1) }
      ∧ (∀ n : Fin 128, v = (n : Nat) → cfg.write 1 v = .written { cfg with source := n })
      ∧ (v < 0 ∨ 127 < v → cfg.write 1 v = .badValue)
      ∧ ranged 2 0 63 { cfg with actNode := v.toNat }
      ∧ ranged 3 0 7 { cfg with actPoint := v.toNat }
      ∧ ranged 4 0 1 { cfg with sense := if v = 0 then .rising else .falling }
      ∧ ranged 5 (-32768) 32767 { cfg with target := v }
      ∧ ranged 6 0 32767 { cfg with tolerance := v.toNat }
      ∧ ranged 7 1 64 { cfg with step := v.toNat }
      ∧ ranged 8 1 255 { cfg with upInterval := v.toNat }
      ∧ ranged 9 1 255 { cfg with downInterval := v.toNat }
      ∧ ranged 10 1 255 { cfg with startDuty := v.toNat }
      ∧ ranged 11 1 255 { cfg with stopDuty := v.toNat }
      ∧ ranged 12 1 255 { cfg with maxDuty := v.toNat }
      ∧ ranged 13 0 255 { cfg with failsafeDuty := v.toNat }
      ∧ ranged 14 0 32767 { cfg with stopTime := v.toNat }
      ∧ ranged 15 0 255 { cfg with refresh := v.toNat }
      ∧ ranged 16 1 255 { cfg with satLimit := v.toNat }
      ∧ (∀ f, f = 17 ∨ 32 ≤ f ∧ f ≤ 36 ∨ f = 63 → cfg.write f v = .readOnly)
      ∧ ∀ f, (18 ≤ f ∧ f ≤ 31 ∨ 37 ≤ f) ∧ f ≠ 63 → cfg.write f v = .unlisted

/-- R150: the same of a setting; the *read* numbers of the part space are READ_ONLY. -/
def Clause.SettingsAreWrittenInRange : Prop :=
  ∀ (p : Settings) (v : Int),
    let ranged (field : Nat) (lo hi : Int) (written : Settings) : Prop :=
      p.write field v = if lo ≤ v ∧ v ≤ hi then .written written else .badValue
    ranged 2 0 1 { p with mode := if v = 0 then .pass else .active }
      ∧ ranged 3 0 1 { p with missPolicy := if v = 0 then .forward else .drop }
      ∧ ranged 4 1 255 { p with resend := v.toNat }
      ∧ ranged 5 0 15 { p with retry := v.toNat }
      ∧ ranged 6 10 32767 { p with sessionTimeout := v.toNat }
      ∧ ranged 7 0 1 { p with alertLink := decide (v = 1) }
      ∧ (∀ f, f ≤ 1 ∨ 8 ≤ f ∧ f ≤ 20 → p.write f v = .readOnly)
      ∧ ∀ f, 21 ≤ f → p.write f v = .unlisted

/-- R185: a written field reads back as VALUE, and every other field number reads as before. -/
def Clause.WrittenFieldReadsBack : Prop :=
  (∀ (cfg cfg' : ChannelConfig) (f : Nat) (v : Int), cfg.write f v = .written cfg' →
      cfg'.field f = some v ∧ ∀ g, g ≠ f → cfg'.field g = cfg.field g)
    ∧ (∀ (cfg cfg' : LoopConfig) (f : Nat) (v : Int), cfg.write f v = .written cfg' →
      cfg'.field f = some v ∧ ∀ g, g ≠ f → cfg'.field g = cfg.field g)
    ∧ ∀ (s : State) (p : Settings) (f : Nat) (v : Int), s.settings.write f v = .written p →
      ({ s with settings := p } : State).partField f = .value v
        ∧ ∀ g, g ≠ f → ({ s with settings := p } : State).partField g = s.partField g

/-- R185, for the two requests that write: which VALUE each field takes, and that a write changes that field only. -/
def Obligations.FieldWritesChangeOneField : Prop :=
  Clause.ChannelFieldsAreWrittenInRange
    ∧ Clause.LoopFieldsAreWrittenInRange
    ∧ Clause.SettingsAreWrittenInRange
    ∧ Clause.WrittenFieldReadsBack

/-- R165: the taking of a COMMIT in an OPEN session of a part that is not frozen. -/
def Obligations.CommitIsScreened : Prop :=
  ∀ (s : State) (c : Cell) (rest : List Cell), s.CanTake c rest → s.session = .opened → s.frozen = false → c.op = 6 →
    let refused (st : Status) : Host.Outcome State Fault Refusal :=
      .next (State.answered { s with requests := rest } c (.plain st))
    let inFlight : Host.Outcome State Fault Refusal :=
      .next { s with requests := rest, reserved := s.reserved + 1, agent := .committing c, sessionTimer := none }
    (2 ≤ c.space → exec .commit s = refused .badSpace)
      ∧ (c.space ≤ 1 → s.editBuffer = .empty → exec .commit s = refused .emptyEdit)
      ∧ (∀ cfg, c.space = 1 → s.editBuffer = .channel cfg → exec .commit s = refused .wrongSpace)
      ∧ (∀ cfg, c.space = 0 → s.editBuffer = .loop cfg → exec .commit s = refused .wrongSpace)
      ∧ (∀ cfg, c.space = 0 → s.editBuffer = .channel cfg →
          (128 ≤ c.b1.toNat → exec .commit s = refused .badEntry) ∧ (c.b1.toNat < 128 → exec .commit s = inFlight))
      ∧ (∀ cfg, c.space = 1 → s.editBuffer = .loop cfg →
          (16 ≤ c.b1.toNat → exec .commit s = refused .badEntry) ∧ (c.b1.toNat < 16 → exec .commit s = inFlight))

/-- R167: the checks of a channel COMMIT, in order. -/
def Clause.ChannelCommitChecks : Prop :=
  ∀ (s : State) (n : Fin 128) (cfg : ChannelConfig),
    let c1 := 1 ≤ cfg.node ∧ cfg.node ≤ 63
    let c2 := cfg.low < cfg.high
    let c3 := (cfg.hyst : Int) ≤ cfg.high - cfg.low
    let holds (m : Fin 128) := m ≠ n ∧ s.channels[m].valid = true ∧ s.channels[m].cfg.key = cfg.key
    let keyChanges := s.channels[n].valid = true ∧ s.channels[n].cfg.key ≠ cfg.key
    let uses (k : Fin 16) := s.loops[k].state ≠ .disabled ∧ s.loops[k].cfg.source = n
    (¬c1 → s.channelChecks n cfg = some (.failedCheck 1))
      ∧ (c1 → ¬c2 → s.channelChecks n cfg = some (.failedCheck 2))
      ∧ (c1 → c2 → ¬c3 → s.channelChecks n cfg = some (.failedCheck 3))
      ∧ (∀ m, c1 → c2 → c3 → s.KeysDistinct → holds m →
          s.channelChecks n cfg = some (.naming .duplicate (m : Nat)))
      ∧ (∀ k, c1 → c2 → c3 → (∀ m, ¬holds m) → keyChanges → uses k → (∀ j, j < k → ¬uses j) →
          s.channelChecks n cfg = some (.naming .inUse (k : Nat)))
      ∧ (c1 → c2 → c3 → (∀ m, ¬holds m) → (¬keyChanges ∨ ∀ k, ¬uses k) → s.channelChecks n cfg = none)

/-- R168: the checks of a loop COMMIT, in order. -/
def Clause.LoopCommitChecks : Prop :=
  ∀ (s : State) (k : Fin 16) (cfg : LoopConfig),
    let l1 := s.channels[cfg.source].valid = true
    let l2 := 1 ≤ cfg.actNode ∧ cfg.actNode ≤ 63
    let l3 := cfg.stopDuty ≤ cfg.startDuty ∧ cfg.startDuty ≤ cfg.maxDuty
    let holds (j : Fin 16) := j ≠ k ∧ s.loops[j].state ≠ .disabled ∧ s.loops[j].cfg.actKey = cfg.actKey
    (cfg.enable = false → s.loopChecks k cfg = none)
      ∧ (cfg.enable = true → ¬l1 → s.loopChecks k cfg = some (.failedCheck 1))
      ∧ (cfg.enable = true → l1 → ¬l2 → s.loopChecks k cfg = some (.failedCheck 2))
      ∧ (cfg.enable = true → l1 → l2 → ¬l3 → s.loopChecks k cfg = some (.failedCheck 3))
      ∧ (∀ j, cfg.enable = true → l1 → l2 → l3 → s.ActuatorsDistinct → holds j →
          s.loopChecks k cfg = some (.naming .duplicate (j : Nat)))
      ∧ (cfg.enable = true → l1 → l2 → l3 → (∀ j, ¬holds j) → s.loopChecks k cfg = none)

/-- R167 and R168: the checks at the end of a scan. -/
def Obligations.CommitChecksInOrder : Prop :=
  Clause.ChannelCommitChecks
    ∧ Clause.LoopCommitChecks

/-- R169, R170 and R171: the end of the scan of a channel COMMIT. The place that was reserved is freed by the placing of the
response, and the session timer starts again. -/
def Obligations.EndOfScanInstallsChannel : Prop :=
  ∀ (s : State) (c : Cell) (n : Fin 128) (cfg : ChannelConfig), s.coldHeld = false → s.agent = .committing c →
    s.session = .opened → c.space = 0 → c.b1.toNat = n → s.editBuffer = .channel cfg →
    let e := s.channels[n]
    let deadline := if s.settings.mode = .active then orStopped cfg.silence else none
    let ended (b : State) (reply : Reply) : Host.Outcome State Fault Refusal :=
      .next (State.answered { b with agent := .idle, reserved := s.reserved - 1 } c reply)
    let unlisted := s.missList.filter (fun r => decide (r.key ≠ cfg.key))
    let ok : Reply := .result (((e.revision + 1) % 256 : Nat) : Int)
    (∀ reply, s.channelChecks n cfg = some reply → exec .endOfScan s = ended s reply)
      ∧ (s.channelChecks n cfg = none → e.valid = true → e.cfg.key = cfg.key → exec .endOfScan s =
        ended { s with
                missList := unlisted
                channels := s.channels.set n
                  { e with
                    cfg := cfg, revision := (e.revision + 1) % 256, deadline := deadline
                    dyn := { e.dyn with
                             state := match e.dyn.state with
                               | .highPend | .lowPend => .normal
                               | .unseen | .normal | .high | .low | .stale => e.dyn.state
                             run := match e.dyn.state with
                               | .high | .low => min e.dyn.run cfg.clears
                               | .unseen | .normal | .highPend | .lowPend | .stale => 0
                             forward := if cfg.policy = .onChange ∧ 0 < cfg.refresh ∧ e.dyn.sent ≠ none
                                 ∧ s.settings.mode = .active then .running cfg.refresh else .idle } } } ok)
      ∧ (s.channelChecks n cfg = none → ¬(e.valid = true ∧ e.cfg.key = cfg.key) → exec .endOfScan s =
        let kept := s.alarms.filter (fun r => decide (r.subject ≠ .channel n))
        ended { s with
                missList := unlisted, alarms := kept, alertPin := alertOf kept
                channels := s.channels.set n
                  { valid := true, cfg := cfg, revision := (e.revision + 1) % 256, dyn := .cleared
                    deadline := deadline } } ok)

/-- R169, R172 and R173: the end of the scan of a loop COMMIT. -/
def Obligations.EndOfScanInstallsLoop : Prop :=
  ∀ (s : State) (c : Cell) (k : Fin 16) (cfg : LoopConfig), s.coldHeld = false → s.agent = .committing c →
    s.session = .opened → c.space = 1 → c.b1.toNat = k → s.editBuffer = .loop cfg →
    let l := s.loops[k]
    let rebound := l.cfg.source ≠ cfg.source ∨ l.cfg.actKey ≠ cfg.actKey
    let ended (b : State) (reply : Reply) : Host.Outcome State Fault Refusal :=
      .next (State.answered { b with agent := .idle, reserved := s.reserved - 1 } c reply)
    let install (withdraw : Bool) (l' : Loop) : Host.Outcome State Fault Refusal :=
      let kept := if withdraw then
        s.alarms.filter (fun r => decide (¬(r.kind = .loopLimit ∧ r.subject = .loop k))) else s.alarms
      ended { s with loops := s.loops.set k { l' with cfg := cfg, revision := (l.revision + 1) % 256 }
                     alarms := kept, alertPin := if withdraw then alertOf kept else s.alertPin }
        (.result (((l.revision + 1) % 256 : Nat) : Int))
    let driven (st : LoopState) (drive : Nat) : Loop :=
      { l with state := st, drive := drive, pending := l.pending || decide (l.drive ≠ drive)
               refreshTimer := orStopped cfg.refresh }
    (∀ reply, s.loopChecks k cfg = some reply → exec .endOfScan s = ended s reply)
      ∧ (s.loopChecks k cfg = none →
        (cfg.enable = false → exec .endOfScan s =
            install true { l with state := .disabled, drive := 0, pending := false, satCount := 0, stepTimer := none
                                  stopTimer := none, refreshTimer := none
                                  guardCount := if rebound then 0 else l.guardCount })
          ∧ (cfg.enable = true → l.state = .disabled ∨ rebound → exec .endOfScan s =
            install true
              { l with
                state := if s.channels[cfg.source].dyn.last = none then .held else .running
                drive := if s.channels[cfg.source].dyn.last = none then cfg.failsafeDuty else cfg.startDuty
                stepTimer := if s.channels[cfg.source].dyn.last = none then none else s.paced cfg.upInterval
                stopTimer := none, satCount := 0, guardCount := 0, pending := true
                refreshTimer := orStopped cfg.refresh })
          ∧ (cfg.enable = true → ¬rebound →
            (l.state = .running → exec .endOfScan s =
                install false (driven .running (min (max l.drive cfg.stopDuty) cfg.maxDuty)))
              ∧ (l.state = .starting → exec .endOfScan s = install false (driven .starting cfg.startDuty))
              ∧ (l.state = .stopWait → 0 < cfg.stopTime → exec .endOfScan s =
                install false { driven .stopWait cfg.stopDuty with stopTimer := s.paced cfg.stopTime })
              ∧ (l.state = .stopWait → cfg.stopTime = 0 → 0 < cfg.stopDuty → exec .endOfScan s =
                install false { driven .stopped 0 with pending := true, stopTimer := none, satCount := 0 })
              ∧ (l.state = .held → exec .endOfScan s = install false (driven .held cfg.failsafeDuty))
              ∧ (l.state = .stopped → exec .endOfScan s = install false (driven .stopped 0))
              ∧ (l.state = .manual → exec .endOfScan s = install false (driven .manual l.drive))))

/-- R175 and R176: REMOVE, past the gates; a SPACE that is neither CHANNEL nor LOOP is refused whichever row takes it
(log 2). -/
def Obligations.RemoveTakesOutOfService : Prop :=
  ∀ (s : State) (c : Cell) (rest : List Cell), s.CanTake c rest → s.session = .opened → s.frozen = false → c.op = 7 →
    let refused (reply : Reply) : Host.Outcome State Fault Refusal :=
      .next (State.answered { s with requests := rest } c reply)
    (2 ≤ c.space → exec .removeChannel s = refused (.plain .badSpace) ∧ exec .removeLoop s = refused (.plain .badSpace))
      ∧ (c.space = 0 → 128 ≤ c.b1.toNat → exec .removeChannel s = refused (.plain .badEntry))
      ∧ (c.space = 1 → 16 ≤ c.b1.toNat → exec .removeLoop s = refused (.plain .badEntry))
      ∧ (∀ n : Fin 128, c.space = 0 → c.b1.toNat = n →
        let uses (k : Fin 16) := s.loops[k].state ≠ .disabled ∧ s.loops[k].cfg.source = n
        (∀ k, uses k → (∀ j, j < k → ¬uses j) → exec .removeChannel s = refused (.naming .inUse (k : Nat)))
          ∧ ((∀ k, ¬uses k) → exec .removeChannel s =
            let kept := s.alarms.filter (fun r => decide (r.subject ≠ .channel n))
            .next (State.answered
              { s with
                requests := rest, alarms := kept, alertPin := alertOf kept
                channels := s.channels.set n
                  { s.channels[n] with valid := false, revision := (s.channels[n].revision + 1) % 256, dyn := .cleared
                                       deadline := none } }
              c (.result (((s.channels[n].revision + 1) % 256 : Nat) : Int)))))
      ∧ (∀ k : Fin 16, c.space = 1 → c.b1.toNat = k → exec .removeLoop s =
        let kept := s.alarms.filter (fun r => decide (¬(r.kind = .loopLimit ∧ r.subject = .loop k)))
        .next (State.answered
          { s with
            requests := rest, alarms := kept, alertPin := alertOf kept
            loops := s.loops.set k
              { s.loops[k] with
                cfg := { s.loops[k].cfg with enable := false }, revision := (s.loops[k].revision + 1) % 256
                state := .disabled, drive := 0, pending := false, satCount := 0, stepTimer := none, stopTimer := none
                refreshTimer := none } }
          c (.result (((s.loops[k].revision + 1) % 256 : Nat) : Int))))

/-- R150, with what a switch of the conditioner mode does to the timers (sections 1.4, 2.5 and 5.8). -/
def Obligations.SetPartWritesSettings : Prop :=
  ∀ (s : State) (c : Cell) (rest : List Cell), s.CanTake c rest → s.session = .opened → s.frozen = false → c.op = 8 →
    let refused (st : Status) : Host.Outcome State Fault Refusal :=
      .next (State.answered { s with requests := rest } c (.plain st))
    (c.space ≠ 3 → exec .setPart s = refused .badSpace)
      ∧ (c.space = 3 →
        (s.settings.write c.b6.toNat c.value = .unlisted → exec .setPart s = refused .badField)
          ∧ (s.settings.write c.b6.toNat c.value = .readOnly → exec .setPart s = refused .readOnly)
          ∧ (s.settings.write c.b6.toNat c.value = .badValue → exec .setPart s = refused .badValue)
          ∧ ∀ p, s.settings.write c.b6.toNat c.value = .written p → ∃ t,
            exec .setPart s =
              .next (State.answered { s with requests := rest, settings := p, channels := t.channels, loops := t.loops } c
                (.result c.value))
              ∧ (p.mode = s.settings.mode → t = s)
              ∧ (s.settings.mode = .active → p.mode = .pass →
                (∀ n : Fin 128, t.channels[n] =
                    { s.channels[n] with
                      deadline := none
                      dyn := { s.channels[n].dyn with
                               forward := if s.channels[n].dyn.forward = .expired then .expired else .idle } })
                  ∧ ∀ k : Fin 16, t.loops[k] = { s.loops[k] with stepTimer := none, stopTimer := none })
              ∧ (s.settings.mode = .pass → p.mode = .active →
                (∀ n : Fin 128, t.channels[n] =
                    { s.channels[n] with
                      deadline := if s.channels[n].valid = true ∧ 0 < s.channels[n].cfg.silence then
                        some s.channels[n].cfg.silence else s.channels[n].deadline
                      dyn := { s.channels[n].dyn with
                               forward := if s.channels[n].valid = true ∧ s.channels[n].cfg.policy = .onChange
                                   ∧ 0 < s.channels[n].cfg.refresh ∧ s.channels[n].dyn.sent ≠ none
                                   ∧ s.channels[n].dyn.forward = .idle then .running s.channels[n].cfg.refresh
                                 else s.channels[n].dyn.forward } })
                  ∧ ∀ k : Fin 16, 0 < s.loops[k].cfg.stopTime ∨ s.loops[k].state ≠ .stopWait → t.loops[k] =
                    match s.loops[k].state with
                    | .stopped | .starting => { s.loops[k] with stepTimer := some s.loops[k].cfg.upInterval }
                    | .running => { s.loops[k] with stepTimer := some s.loops[k].cfg.downInterval }
                    | .stopWait => { s.loops[k] with stepTimer := some s.loops[k].cfg.downInterval
                                                     stopTimer := some s.loops[k].cfg.stopTime }
                    | .held | .manual | .disabled => s.loops[k]))

/-- R67 and R41: ACK by sequence, in every session state; the CLEARED alarm of a return to NORMAL comes after the removal.
Two premises rule out states that no run reaches: no two records share a SEQ (R54) and a SEQ is one entry's TRIP_SEQ (R44). -/
def Clause.AckBySequenceRemovesTheRecord : Prop :=
  ∀ (s : State) (c : Cell) (rest : List Cell), s.CanTake c rest → c.op = 9 → c.space = 5 →
    let p := s.pastGateOne
    (s.alarms.map (·.seq)).Nodup →
    (∀ older r younger, s.alarms = older ++ r :: younger → c.value = r.seq →
      let removed : State :=
        { p with requests := rest, alarms := older ++ younger, alertPin := alertOf (older ++ younger) }
      ((∀ n : Fin 128, s.channels[n].dyn.tripSeq ≠ some r.seq) → exec .ackAlarm s =
          .next (removed.answered c (.plain .ok)))
        ∧ (∀ n : Fin 128, (∀ m : Fin 128, s.channels[m].dyn.tripSeq = some r.seq ↔ m = n) →
            let e := s.channels[n]
            (e.dyn.clearMet = false → exec .ackAlarm s =
                .next (State.answered
                  { removed with
                    channels := s.channels.set n { e with dyn := { e.dyn with acked := true, tripSeq := none } } }
                  c (.plain .ok)))
              ∧ (e.dyn.clearMet = true → exec .ackAlarm s =
                .next ((removed.returnToNormal n (e.dyn.last.getD 0)).answered c (.plain .ok)))))
      ∧ ((∀ r ∈ s.alarms, (r.seq : Int) ≠ c.value) → exec .ackAlarm s =
        .next (State.answered { p with requests := rest } c (.plain .notFound)))

/-- R42 and R68: ACK by channel, in every session state. -/
def Clause.AckByChannelEndsTheTrip : Prop :=
  ∀ (s : State) (c : Cell) (rest : List Cell), s.CanTake c rest → c.op = 9 → c.space = 0 →
    let p := s.pastGateOne
    (128 ≤ c.b1.toNat → exec .ackChannel s = .next (State.answered { p with requests := rest } c (.plain .badEntry)))
      ∧ ∀ n : Fin 128, c.b1.toNat = n →
        let e := s.channels[n]
        let kept := s.alarms.filter (fun r => decide (e.dyn.tripSeq ≠ some r.seq))
        let removed : State :=
          if e.dyn.tripSeq = none then { p with requests := rest }
          else { p with requests := rest, alarms := kept, alertPin := alertOf kept }
        (e.dyn.state ≠ .high → e.dyn.state ≠ .low → exec .ackChannel s =
            .next (State.answered { p with requests := rest } c (.plain .notFound)))
          ∧ (e.dyn.state = .high ∨ e.dyn.state = .low → e.dyn.clearMet = false → exec .ackChannel s =
            .next (State.answered
              { removed with
                channels := s.channels.set n { e with dyn := { e.dyn with acked := true, tripSeq := none } } }
              c (.plain .ok)))
          ∧ (e.dyn.state = .high ∨ e.dyn.state = .low → e.dyn.clearMet = true → exec .ackChannel s =
            .next ((removed.returnToNormal n (e.dyn.last.getD 0)).answered c (.plain .ok)))

/-- The SPACE check of R147: an ACK whose SPACE is neither ALARM nor CHANNEL, whichever row takes it (log 2). -/
def Clause.AckRefusesOtherSpaces : Prop :=
  ∀ (s : State) (c : Cell) (rest : List Cell), s.CanTake c rest → c.op = 9 → c.space ≠ 0 → c.space ≠ 5 →
    exec .ackAlarm s = .next (State.answered ({ s with requests := rest } : State).pastGateOne c (.plain .badSpace))
      ∧ exec .ackChannel s = .next (State.answered ({ s with requests := rest } : State).pastGateOne c (.plain .badSpace))

/-- R41, R42, R67 and R68: both forms of ACK (log 2 for another SPACE). -/
def Obligations.AcknowledgementRemovesAndReturns : Prop :=
  Clause.AckBySequenceRemovesTheRecord
    ∧ Clause.AckByChannelEndsTheTrip
    ∧ Clause.AckRefusesOtherSpaces

/-- R149: CLEAR in an OPEN session; a SPACE that is neither MISS nor PART is refused whichever row takes it (log 2). -/
def Clause.ClearEmptiesListOrCounters : Prop :=
  ∀ (s : State) (c : Cell) (rest : List Cell), s.CanTake c rest → s.session = .opened → c.op = 11 →
    (c.space = 4 → exec .clearMiss s = .next (State.answered { s with requests := rest, missList := [] } c (.plain .ok)))
      ∧ (c.space = 3 → exec .clearPart s =
        .next (State.answered
          { s with requests := rest, north := { s.north with crc := 0 }, south := { s.south with crc := 0 }
                   northOverflow := 0, southOverflow := 0, misses := 0, reqDiscards := 0, abandoned := 0 }
          c (.plain .ok)))
      ∧ (c.space ≠ 3 → c.space ≠ 4 →
        exec .clearMiss s = .next (State.answered { s with requests := rest } c (.plain .badSpace))
          ∧ exec .clearPart s = .next (State.answered { s with requests := rest } c (.plain .badSpace)))

/-- R153, its first part: FREEZE in an OPEN session sets the frozen flag. -/
def Clause.FreezeSetsTheFlag : Prop :=
  ∀ (s : State) (c : Cell) (rest : List Cell), s.CanTake c rest → s.session = .opened → c.op = 13 →
    exec .freeze s = .next (State.answered { s with requests := rest, frozen := true } c (.plain .ok))

/-- R149 and the FREEZE of section 8.11. -/
def Obligations.ClearAndFreeze : Prop :=
  Clause.ClearEmptiesListOrCounters
    ∧ Clause.FreezeSetsTheFlag

/-- R152: RESTART in an OPEN session makes a warm reset, and its OK is then the only response, if the north receiver is in
SYNC. -/
def Obligations.RestartRequestMakesWarmReset : Prop :=
  ∀ (s : State) (c : Cell) (rest : List Cell), s.CanTake c rest → s.session = .opened → c.op = 12 →
    ∃ w, State.IsWarmResetOf w s
      ∧ exec .restart s =
        .next { w with responses := if s.north.link = .sync then [responseCell c (.plain .ok)] else [] }

/-! ### Rules of the whole part -/

/-- Sections 1.1 and 5.1: the static parts are changed by the end of a COMMIT, a REMOVE and cold reset only. -/
def Clause.StaticPartsChangeOnlyByInstallOrRemove : Prop :=
  ∀ (s t : State) (i : Instr), exec i s = .next t → i ≠ .endOfScan → i ≠ .removeChannel → i ≠ .removeLoop →
    (∀ e, i ≠ .coldReset e) →
    (∀ n : Fin 128, t.channels[n].valid = s.channels[n].valid ∧ t.channels[n].cfg = s.channels[n].cfg
        ∧ t.channels[n].revision = s.channels[n].revision)
      ∧ ∀ k : Fin 16, t.loops[k].cfg = s.loops[k].cfg ∧ t.loops[k].revision = s.loops[k].revision

/-- Section 8.11: while the frozen flag is set nothing but cold reset changes it, a setting or a static part. No COMMIT can be
in flight then, since the Agent takes nothing while COMMITTING. -/
def Clause.FrozenPartKeepsTablesAndSettings : Prop :=
  ∀ (s t : State) (i : Instr), s.frozen = true → s.agent = .idle → exec i s = .next t → (∀ e, i ≠ .coldReset e) →
    t.frozen = true ∧ t.agent = .idle ∧ t.settings = s.settings
      ∧ (∀ n : Fin 128, t.channels[n].valid = s.channels[n].valid ∧ t.channels[n].cfg = s.channels[n].cfg
          ∧ t.channels[n].revision = s.channels[n].revision)
      ∧ ∀ k : Fin 16, t.loops[k].cfg = s.loops[k].cfg ∧ t.loops[k].revision = s.loops[k].revision

/-- Sections 1.1, 5.1 and 8.11: what changes a static part, a setting or the frozen flag. -/
def Obligations.StaticPartsStandStill : Prop :=
  Clause.StaticPartsChangeOnlyByInstallOrRemove
    ∧ Clause.FrozenPartKeepsTablesAndSettings

/-! ### Invariants that every step keeps -/

/-- The part right after cold reset is sound in every respect. -/
def Obligations.ResetIsSound : Prop :=
  State.reset.QueueSound ∧ State.reset.LinesSound ∧ State.reset.SessionSound ∧ State.reset.MissSound
    ∧ State.reset.KeysDistinct ∧ State.reset.ChannelsSound ∧ State.reset.TripsNamed ∧ State.reset.LoopsSound
    ∧ State.reset.ActuatorsDistinct ∧ State.reset.CountersSound ∧ State.reset.ColdSound ∧ State.reset.RangesSound

/-- The laws of the Alarm Queue and of ALERT# (R54, R57, R58, R65, R72). -/
def Obligations.StepKeepsQueueSound : Prop :=
  ∀ s t : State, s.QueueSound → Machine.step s = .next t → t.QueueSound

/-- The capacities of the FIFOs and queues and the response places (R120, R122, R126, R137). -/
def Obligations.StepKeepsLinesSound : Prop :=
  ∀ s t : State, s.LinesSound → Machine.step s = .next t → t.LinesSound

/-- The laws of the session, its timers, the edit buffer and the COMMIT in flight (R156, R162, R166). -/
def Obligations.StepKeepsSessionSound : Prop :=
  ∀ s t : State, s.SessionSound → Machine.step s = .next t → t.SessionSound

/-- No two valid entries share a key, and the Miss List holds none of their keys (R5, R13). -/
def Obligations.StepKeepsKeysAndMissList : Prop :=
  ∀ s t : State, s.KeysDistinct ∧ s.MissSound → Machine.step s = .next t → t.KeysDistinct ∧ t.MissSound

/-- The laws of every channel entry and of its timers (R3, R4, R24, R32). -/
def Obligations.StepKeepsChannelsSound : Prop :=
  ∀ s t : State, s.ChannelsSound → Machine.step s = .next t → t.ChannelsSound

/-- A present TRIP_SEQ names a held record of its entry (R44), in a part whose queue and entries are sound. -/
def Obligations.StepKeepsTripsNamed : Prop :=
  ∀ s t : State, s.QueueSound → s.ChannelsSound → s.TripsNamed → Machine.step s = .next t → t.TripsNamed

/-- The laws of every loop: DRIVE by STATE, the timers, DISABLED (R78, R79, R99). -/
def Obligations.StepKeepsLoopsSound : Prop :=
  ∀ s t : State, s.LoopsSound → Machine.step s = .next t → t.LoopsSound

/-- No two loops outside DISABLED share an actuator, and each has a valid source (R77). -/
def Obligations.StepKeepsActuatorsDistinct : Prop :=
  ∀ s t : State, s.ActuatorsDistinct → Machine.step s = .next t → t.ActuatorsDistinct

/-- The ranges of the counters and runs, and the cold-reset condition while cold reset is held (R106, R132, R178). -/
def Obligations.StepKeepsCountersAndColdReset : Prop :=
  ∀ s t : State, s.CountersSound ∧ s.ColdSound → Machine.step s = .next t → t.CountersSound ∧ t.ColdSound

/-- The settings, the edit buffer, the tables, the Alarm Queue and the Miss List hold numbers in the ranges of their tables
(R1, R54, R55, R76, R150, R162). -/
def Obligations.StepKeepsRangesSound : Prop :=
  ∀ s t : State, s.RangesSound → Machine.step s = .next t → t.RangesSound
end

