-- ==== Sys2Proof/Laws/State.lean ====
section
/-! SUPPORT. One lemma per field for each shared update of the state: the fields it leaves as they were, and the value of
those it sets. -/
namespace Sys2Proof.Machine

/-! ### The tables -/

@[simp] theorem getElem_mapTable {α β : Type} {m : Nat} (f : α → β) (v : Vector α m) (i : Nat) (h : i < m) :
    (mapTable f v)[i] = f v[i] := by
  simp [mapTable]

@[simp] theorem State.updateChannel_channels (s : State) (n : Fin Config.channelCount) (f : Channel → Channel) :
    (s.updateChannel n f).channels = s.channels.set n (f s.channels[n]) := rfl

@[simp] theorem State.updateLoop_loops (s : State) (k : Fin Config.loopCount) (f : Loop → Loop) :
    (s.updateLoop k f).loops = s.loops.set k (f s.loops[k]) := rfl

@[simp] theorem State.mapChannels_channels (s : State) (f : Channel → Channel) :
    (s.mapChannels f).channels = mapTable f s.channels := rfl

@[simp] theorem State.mapLoops_loops (s : State) (f : Loop → Loop) :
    (s.mapLoops f).loops = mapTable f s.loops := rfl

@[simp] theorem State.updateDyn_channels (s : State) (n : Fin Config.channelCount) (f : ChannelDynamic → ChannelDynamic) :
    (s.updateDyn n f).channels = s.channels.set n { s.channels[n] with dyn := f s.channels[n].dyn } := rfl

@[simp] theorem State.withAlarms_alarms (s : State) (q : List AlarmRecord) : (s.withAlarms q).alarms = q := rfl

@[simp] theorem State.withAlarms_alertPin (s : State) (q : List AlarmRecord) : (s.withAlarms q).alertPin = alertOf q := rfl

@[simp] theorem State.dropAlarms_alarms (s : State) (p : AlarmRecord → Bool) :
    (s.dropAlarms p).alarms = s.alarms.filter (fun r => !p r) := rfl

@[simp] theorem State.dropAlarms_alertPin (s : State) (p : AlarmRecord → Bool) :
    (s.dropAlarms p).alertPin = alertOf (s.alarms.filter (fun r => !p r)) := rfl

@[simp] theorem State.appendAlarm_alarms (s : State) (a : Alarm) :
    (s.appendAlarm a).alarms = s.alarms ++ [AlarmRecord.fresh s.takeSeq a] := rfl

@[simp] theorem State.appendAlarm_alertPin (s : State) (a : Alarm) :
    (s.appendAlarm a).alertPin = alertOf (s.alarms ++ [AlarmRecord.fresh s.takeSeq a]) := rfl

@[simp] theorem State.appendAlarm_nextSeq (s : State) (a : Alarm) : (s.appendAlarm a).nextSeq = wrap8 s.takeSeq := rfl

@[simp] theorem State.sendNorth_northSent (s : State) (c : Cell) : (s.sendNorth c).northSent = some c := rfl

@[simp] theorem State.sendSouth_southSent (s : State) (c : Cell) : (s.sendSouth c).southSent = some c := rfl

@[simp] theorem State.receiver_north (s : State) : s.receiver .north = s.north := rfl

@[simp] theorem State.receiver_south (s : State) : s.receiver .south = s.south := rfl

@[simp] theorem State.receiver_withReceiver (s : State) (p : Port) (r : Receiver) : (s.withReceiver p r).receiver p = r := by
  cases p <;> rfl

@[simp] theorem State.withReceiver_withReceiver (s : State) (p : Port) (r r' : Receiver) :
    (s.withReceiver p r).withReceiver p r' = s.withReceiver p r' := by
  cases p <;> rfl

@[simp] theorem State.withReceiver_north (s : State) (r : Receiver) : s.withReceiver .north r = { s with north := r } := rfl

@[simp] theorem State.withReceiver_south (s : State) (r : Receiver) : s.withReceiver .south r = { s with south := r } := rfl

/-! ### Frames of the operations that choose between updates -/

/-- Losing an alarm touches the queue, ALERT# and NEXT_SEQ only. -/
theorem State.loseAlarm_frame (s : State) (a : Alarm) :
    s.loseAlarm a = { s with alarms := (s.loseAlarm a).alarms, alertPin := (s.loseAlarm a).alertPin
                             nextSeq := (s.loseAlarm a).nextSeq } := by
  unfold State.loseAlarm; split <;> rfl

/-- An admission touches the queue, ALERT# and NEXT_SEQ only. -/
theorem State.raise_frame (s : State) (a : Alarm) :
    s.raise a = { s with alarms := (s.raise a).alarms, alertPin := (s.raise a).alertPin
                         nextSeq := (s.raise a).nextSeq } := by
  unfold State.raise State.takeAlarm
  split
  · rfl
  · split
    · rfl
    · exact s.loseAlarm_frame a

/-- A cell handed north touches the north forward FIFO and its counter only. -/
theorem State.handNorth_frame (s : State) (c : Cell) :
    s.handNorth c = { s with northFifo := (s.handNorth c).northFifo, northOverflow := (s.handNorth c).northOverflow } := by
  unfold State.handNorth
  split
  · rfl
  · split <;> rfl

/-- A cell handed south touches the south pass-through FIFO and its counter only. -/
theorem State.handSouth_frame (s : State) (c : Cell) :
    s.handSouth c = { s with southFifo := (s.handSouth c).southFifo, southOverflow := (s.handSouth c).southOverflow } := by
  unfold State.handSouth
  split
  · rfl
  · split <;> rfl

/-! ### The fields each operation leaves as they were -/

@[simp] theorem State.updateChannel_resetLow (s : State) (n : Fin Config.channelCount) (f : Channel → Channel) : (s.updateChannel n f).resetLow = s.resetLow :=
  rfl
@[simp] theorem State.updateChannel_poweringUp (s : State) (n : Fin Config.channelCount) (f : Channel → Channel) : (s.updateChannel n f).poweringUp = s.poweringUp :=
  rfl
@[simp] theorem State.updateChannel_restartLow (s : State) (n : Fin Config.channelCount) (f : Channel → Channel) : (s.updateChannel n f).restartLow = s.restartLow :=
  rfl
@[simp] theorem State.updateChannel_alertPin (s : State) (n : Fin Config.channelCount) (f : Channel → Channel) : (s.updateChannel n f).alertPin = s.alertPin :=
  rfl
@[simp] theorem State.updateChannel_divider (s : State) (n : Fin Config.channelCount) (f : Channel → Channel) : (s.updateChannel n f).divider = s.divider :=
  rfl
@[simp] theorem State.updateChannel_north (s : State) (n : Fin Config.channelCount) (f : Channel → Channel) : (s.updateChannel n f).north = s.north :=
  rfl
@[simp] theorem State.updateChannel_south (s : State) (n : Fin Config.channelCount) (f : Channel → Channel) : (s.updateChannel n f).south = s.south :=
  rfl
@[simp] theorem State.updateChannel_settings (s : State) (n : Fin Config.channelCount) (f : Channel → Channel) : (s.updateChannel n f).settings = s.settings :=
  rfl
@[simp] theorem State.updateChannel_missList (s : State) (n : Fin Config.channelCount) (f : Channel → Channel) : (s.updateChannel n f).missList = s.missList :=
  rfl
@[simp] theorem State.updateChannel_misses (s : State) (n : Fin Config.channelCount) (f : Channel → Channel) : (s.updateChannel n f).misses = s.misses :=
  rfl
@[simp] theorem State.updateChannel_alarms (s : State) (n : Fin Config.channelCount) (f : Channel → Channel) : (s.updateChannel n f).alarms = s.alarms :=
  rfl
@[simp] theorem State.updateChannel_nextSeq (s : State) (n : Fin Config.channelCount) (f : Channel → Channel) : (s.updateChannel n f).nextSeq = s.nextSeq :=
  rfl
@[simp] theorem State.updateChannel_abandoned (s : State) (n : Fin Config.channelCount) (f : Channel → Channel) : (s.updateChannel n f).abandoned = s.abandoned :=
  rfl
@[simp] theorem State.updateChannel_loops (s : State) (n : Fin Config.channelCount) (f : Channel → Channel) : (s.updateChannel n f).loops = s.loops :=
  rfl
@[simp] theorem State.updateChannel_northFifo (s : State) (n : Fin Config.channelCount) (f : Channel → Channel) : (s.updateChannel n f).northFifo = s.northFifo :=
  rfl
@[simp] theorem State.updateChannel_southFifo (s : State) (n : Fin Config.channelCount) (f : Channel → Channel) : (s.updateChannel n f).southFifo = s.southFifo :=
  rfl
@[simp] theorem State.updateChannel_responses (s : State) (n : Fin Config.channelCount) (f : Channel → Channel) : (s.updateChannel n f).responses = s.responses :=
  rfl
@[simp] theorem State.updateChannel_reserved (s : State) (n : Fin Config.channelCount) (f : Channel → Channel) : (s.updateChannel n f).reserved = s.reserved :=
  rfl
@[simp] theorem State.updateChannel_lastWinner (s : State) (n : Fin Config.channelCount) (f : Channel → Channel) : (s.updateChannel n f).lastWinner = s.lastWinner :=
  rfl
@[simp] theorem State.updateChannel_lastServed (s : State) (n : Fin Config.channelCount) (f : Channel → Channel) : (s.updateChannel n f).lastServed = s.lastServed :=
  rfl
@[simp] theorem State.updateChannel_northOverflow (s : State) (n : Fin Config.channelCount) (f : Channel → Channel) : (s.updateChannel n f).northOverflow = s.northOverflow :=
  rfl
@[simp] theorem State.updateChannel_southOverflow (s : State) (n : Fin Config.channelCount) (f : Channel → Channel) : (s.updateChannel n f).southOverflow = s.southOverflow :=
  rfl
@[simp] theorem State.updateChannel_requests (s : State) (n : Fin Config.channelCount) (f : Channel → Channel) : (s.updateChannel n f).requests = s.requests :=
  rfl
@[simp] theorem State.updateChannel_reqDiscards (s : State) (n : Fin Config.channelCount) (f : Channel → Channel) : (s.updateChannel n f).reqDiscards = s.reqDiscards :=
  rfl
@[simp] theorem State.updateChannel_agent (s : State) (n : Fin Config.channelCount) (f : Channel → Channel) : (s.updateChannel n f).agent = s.agent :=
  rfl
@[simp] theorem State.updateChannel_session (s : State) (n : Fin Config.channelCount) (f : Channel → Channel) : (s.updateChannel n f).session = s.session :=
  rfl
@[simp] theorem State.updateChannel_openCounter (s : State) (n : Fin Config.channelCount) (f : Channel → Channel) : (s.updateChannel n f).openCounter = s.openCounter :=
  rfl
@[simp] theorem State.updateChannel_proposal (s : State) (n : Fin Config.channelCount) (f : Channel → Channel) : (s.updateChannel n f).proposal = s.proposal :=
  rfl
@[simp] theorem State.updateChannel_proposalTimer (s : State) (n : Fin Config.channelCount) (f : Channel → Channel) : (s.updateChannel n f).proposalTimer = s.proposalTimer :=
  rfl
@[simp] theorem State.updateChannel_sessionTimer (s : State) (n : Fin Config.channelCount) (f : Channel → Channel) : (s.updateChannel n f).sessionTimer = s.sessionTimer :=
  rfl
@[simp] theorem State.updateChannel_editBuffer (s : State) (n : Fin Config.channelCount) (f : Channel → Channel) : (s.updateChannel n f).editBuffer = s.editBuffer :=
  rfl
@[simp] theorem State.updateChannel_frozen (s : State) (n : Fin Config.channelCount) (f : Channel → Channel) : (s.updateChannel n f).frozen = s.frozen :=
  rfl
@[simp] theorem State.updateChannel_northSent (s : State) (n : Fin Config.channelCount) (f : Channel → Channel) : (s.updateChannel n f).northSent = s.northSent :=
  rfl
@[simp] theorem State.updateChannel_southSent (s : State) (n : Fin Config.channelCount) (f : Channel → Channel) : (s.updateChannel n f).southSent = s.southSent :=
  rfl
@[simp] theorem State.updateChannel_freeDraws (s : State) (n : Fin Config.channelCount) (f : Channel → Channel) : (s.updateChannel n f).freeDraws = s.freeDraws :=
  rfl
@[simp] theorem State.updateChannel_pending (s : State) (n : Fin Config.channelCount) (f : Channel → Channel) : (s.updateChannel n f).pending = s.pending :=
  rfl

@[simp] theorem State.updateLoop_resetLow (s : State) (k : Fin Config.loopCount) (f : Loop → Loop) : (s.updateLoop k f).resetLow = s.resetLow :=
  rfl
@[simp] theorem State.updateLoop_poweringUp (s : State) (k : Fin Config.loopCount) (f : Loop → Loop) : (s.updateLoop k f).poweringUp = s.poweringUp :=
  rfl
@[simp] theorem State.updateLoop_restartLow (s : State) (k : Fin Config.loopCount) (f : Loop → Loop) : (s.updateLoop k f).restartLow = s.restartLow :=
  rfl
@[simp] theorem State.updateLoop_alertPin (s : State) (k : Fin Config.loopCount) (f : Loop → Loop) : (s.updateLoop k f).alertPin = s.alertPin :=
  rfl
@[simp] theorem State.updateLoop_divider (s : State) (k : Fin Config.loopCount) (f : Loop → Loop) : (s.updateLoop k f).divider = s.divider :=
  rfl
@[simp] theorem State.updateLoop_north (s : State) (k : Fin Config.loopCount) (f : Loop → Loop) : (s.updateLoop k f).north = s.north :=
  rfl
@[simp] theorem State.updateLoop_south (s : State) (k : Fin Config.loopCount) (f : Loop → Loop) : (s.updateLoop k f).south = s.south :=
  rfl
@[simp] theorem State.updateLoop_settings (s : State) (k : Fin Config.loopCount) (f : Loop → Loop) : (s.updateLoop k f).settings = s.settings :=
  rfl
@[simp] theorem State.updateLoop_channels (s : State) (k : Fin Config.loopCount) (f : Loop → Loop) : (s.updateLoop k f).channels = s.channels :=
  rfl
@[simp] theorem State.updateLoop_missList (s : State) (k : Fin Config.loopCount) (f : Loop → Loop) : (s.updateLoop k f).missList = s.missList :=
  rfl
@[simp] theorem State.updateLoop_misses (s : State) (k : Fin Config.loopCount) (f : Loop → Loop) : (s.updateLoop k f).misses = s.misses :=
  rfl
@[simp] theorem State.updateLoop_alarms (s : State) (k : Fin Config.loopCount) (f : Loop → Loop) : (s.updateLoop k f).alarms = s.alarms :=
  rfl
@[simp] theorem State.updateLoop_nextSeq (s : State) (k : Fin Config.loopCount) (f : Loop → Loop) : (s.updateLoop k f).nextSeq = s.nextSeq :=
  rfl
@[simp] theorem State.updateLoop_abandoned (s : State) (k : Fin Config.loopCount) (f : Loop → Loop) : (s.updateLoop k f).abandoned = s.abandoned :=
  rfl
@[simp] theorem State.updateLoop_northFifo (s : State) (k : Fin Config.loopCount) (f : Loop → Loop) : (s.updateLoop k f).northFifo = s.northFifo :=
  rfl
@[simp] theorem State.updateLoop_southFifo (s : State) (k : Fin Config.loopCount) (f : Loop → Loop) : (s.updateLoop k f).southFifo = s.southFifo :=
  rfl
@[simp] theorem State.updateLoop_responses (s : State) (k : Fin Config.loopCount) (f : Loop → Loop) : (s.updateLoop k f).responses = s.responses :=
  rfl
@[simp] theorem State.updateLoop_reserved (s : State) (k : Fin Config.loopCount) (f : Loop → Loop) : (s.updateLoop k f).reserved = s.reserved :=
  rfl
@[simp] theorem State.updateLoop_lastWinner (s : State) (k : Fin Config.loopCount) (f : Loop → Loop) : (s.updateLoop k f).lastWinner = s.lastWinner :=
  rfl
@[simp] theorem State.updateLoop_lastServed (s : State) (k : Fin Config.loopCount) (f : Loop → Loop) : (s.updateLoop k f).lastServed = s.lastServed :=
  rfl
@[simp] theorem State.updateLoop_northOverflow (s : State) (k : Fin Config.loopCount) (f : Loop → Loop) : (s.updateLoop k f).northOverflow = s.northOverflow :=
  rfl
@[simp] theorem State.updateLoop_southOverflow (s : State) (k : Fin Config.loopCount) (f : Loop → Loop) : (s.updateLoop k f).southOverflow = s.southOverflow :=
  rfl
@[simp] theorem State.updateLoop_requests (s : State) (k : Fin Config.loopCount) (f : Loop → Loop) : (s.updateLoop k f).requests = s.requests :=
  rfl
@[simp] theorem State.updateLoop_reqDiscards (s : State) (k : Fin Config.loopCount) (f : Loop → Loop) : (s.updateLoop k f).reqDiscards = s.reqDiscards :=
  rfl
@[simp] theorem State.updateLoop_agent (s : State) (k : Fin Config.loopCount) (f : Loop → Loop) : (s.updateLoop k f).agent = s.agent :=
  rfl
@[simp] theorem State.updateLoop_session (s : State) (k : Fin Config.loopCount) (f : Loop → Loop) : (s.updateLoop k f).session = s.session :=
  rfl
@[simp] theorem State.updateLoop_openCounter (s : State) (k : Fin Config.loopCount) (f : Loop → Loop) : (s.updateLoop k f).openCounter = s.openCounter :=
  rfl
@[simp] theorem State.updateLoop_proposal (s : State) (k : Fin Config.loopCount) (f : Loop → Loop) : (s.updateLoop k f).proposal = s.proposal :=
  rfl
@[simp] theorem State.updateLoop_proposalTimer (s : State) (k : Fin Config.loopCount) (f : Loop → Loop) : (s.updateLoop k f).proposalTimer = s.proposalTimer :=
  rfl
@[simp] theorem State.updateLoop_sessionTimer (s : State) (k : Fin Config.loopCount) (f : Loop → Loop) : (s.updateLoop k f).sessionTimer = s.sessionTimer :=
  rfl
@[simp] theorem State.updateLoop_editBuffer (s : State) (k : Fin Config.loopCount) (f : Loop → Loop) : (s.updateLoop k f).editBuffer = s.editBuffer :=
  rfl
@[simp] theorem State.updateLoop_frozen (s : State) (k : Fin Config.loopCount) (f : Loop → Loop) : (s.updateLoop k f).frozen = s.frozen :=
  rfl
@[simp] theorem State.updateLoop_northSent (s : State) (k : Fin Config.loopCount) (f : Loop → Loop) : (s.updateLoop k f).northSent = s.northSent :=
  rfl
@[simp] theorem State.updateLoop_southSent (s : State) (k : Fin Config.loopCount) (f : Loop → Loop) : (s.updateLoop k f).southSent = s.southSent :=
  rfl
@[simp] theorem State.updateLoop_freeDraws (s : State) (k : Fin Config.loopCount) (f : Loop → Loop) : (s.updateLoop k f).freeDraws = s.freeDraws :=
  rfl
@[simp] theorem State.updateLoop_pending (s : State) (k : Fin Config.loopCount) (f : Loop → Loop) : (s.updateLoop k f).pending = s.pending :=
  rfl

@[simp] theorem State.mapChannels_resetLow (s : State) (f : Channel → Channel) : (s.mapChannels f).resetLow = s.resetLow :=
  rfl
@[simp] theorem State.mapChannels_poweringUp (s : State) (f : Channel → Channel) : (s.mapChannels f).poweringUp = s.poweringUp :=
  rfl
@[simp] theorem State.mapChannels_restartLow (s : State) (f : Channel → Channel) : (s.mapChannels f).restartLow = s.restartLow :=
  rfl
@[simp] theorem State.mapChannels_alertPin (s : State) (f : Channel → Channel) : (s.mapChannels f).alertPin = s.alertPin :=
  rfl
@[simp] theorem State.mapChannels_divider (s : State) (f : Channel → Channel) : (s.mapChannels f).divider = s.divider :=
  rfl
@[simp] theorem State.mapChannels_north (s : State) (f : Channel → Channel) : (s.mapChannels f).north = s.north := rfl
@[simp] theorem State.mapChannels_south (s : State) (f : Channel → Channel) : (s.mapChannels f).south = s.south := rfl
@[simp] theorem State.mapChannels_settings (s : State) (f : Channel → Channel) : (s.mapChannels f).settings = s.settings :=
  rfl
@[simp] theorem State.mapChannels_missList (s : State) (f : Channel → Channel) : (s.mapChannels f).missList = s.missList :=
  rfl
@[simp] theorem State.mapChannels_misses (s : State) (f : Channel → Channel) : (s.mapChannels f).misses = s.misses :=
  rfl
@[simp] theorem State.mapChannels_alarms (s : State) (f : Channel → Channel) : (s.mapChannels f).alarms = s.alarms :=
  rfl
@[simp] theorem State.mapChannels_nextSeq (s : State) (f : Channel → Channel) : (s.mapChannels f).nextSeq = s.nextSeq :=
  rfl
@[simp] theorem State.mapChannels_abandoned (s : State) (f : Channel → Channel) : (s.mapChannels f).abandoned = s.abandoned :=
  rfl
@[simp] theorem State.mapChannels_loops (s : State) (f : Channel → Channel) : (s.mapChannels f).loops = s.loops := rfl
@[simp] theorem State.mapChannels_northFifo (s : State) (f : Channel → Channel) : (s.mapChannels f).northFifo = s.northFifo :=
  rfl
@[simp] theorem State.mapChannels_southFifo (s : State) (f : Channel → Channel) : (s.mapChannels f).southFifo = s.southFifo :=
  rfl
@[simp] theorem State.mapChannels_responses (s : State) (f : Channel → Channel) : (s.mapChannels f).responses = s.responses :=
  rfl
@[simp] theorem State.mapChannels_reserved (s : State) (f : Channel → Channel) : (s.mapChannels f).reserved = s.reserved :=
  rfl
@[simp] theorem State.mapChannels_lastWinner (s : State) (f : Channel → Channel) : (s.mapChannels f).lastWinner = s.lastWinner :=
  rfl
@[simp] theorem State.mapChannels_lastServed (s : State) (f : Channel → Channel) : (s.mapChannels f).lastServed = s.lastServed :=
  rfl
@[simp] theorem State.mapChannels_northOverflow (s : State) (f : Channel → Channel) : (s.mapChannels f).northOverflow = s.northOverflow :=
  rfl
@[simp] theorem State.mapChannels_southOverflow (s : State) (f : Channel → Channel) : (s.mapChannels f).southOverflow = s.southOverflow :=
  rfl
@[simp] theorem State.mapChannels_requests (s : State) (f : Channel → Channel) : (s.mapChannels f).requests = s.requests :=
  rfl
@[simp] theorem State.mapChannels_reqDiscards (s : State) (f : Channel → Channel) : (s.mapChannels f).reqDiscards = s.reqDiscards :=
  rfl
@[simp] theorem State.mapChannels_agent (s : State) (f : Channel → Channel) : (s.mapChannels f).agent = s.agent := rfl
@[simp] theorem State.mapChannels_session (s : State) (f : Channel → Channel) : (s.mapChannels f).session = s.session :=
  rfl
@[simp] theorem State.mapChannels_openCounter (s : State) (f : Channel → Channel) : (s.mapChannels f).openCounter = s.openCounter :=
  rfl
@[simp] theorem State.mapChannels_proposal (s : State) (f : Channel → Channel) : (s.mapChannels f).proposal = s.proposal :=
  rfl
@[simp] theorem State.mapChannels_proposalTimer (s : State) (f : Channel → Channel) : (s.mapChannels f).proposalTimer = s.proposalTimer :=
  rfl
@[simp] theorem State.mapChannels_sessionTimer (s : State) (f : Channel → Channel) : (s.mapChannels f).sessionTimer = s.sessionTimer :=
  rfl
@[simp] theorem State.mapChannels_editBuffer (s : State) (f : Channel → Channel) : (s.mapChannels f).editBuffer = s.editBuffer :=
  rfl
@[simp] theorem State.mapChannels_frozen (s : State) (f : Channel → Channel) : (s.mapChannels f).frozen = s.frozen :=
  rfl
@[simp] theorem State.mapChannels_northSent (s : State) (f : Channel → Channel) : (s.mapChannels f).northSent = s.northSent :=
  rfl
@[simp] theorem State.mapChannels_southSent (s : State) (f : Channel → Channel) : (s.mapChannels f).southSent = s.southSent :=
  rfl
@[simp] theorem State.mapChannels_freeDraws (s : State) (f : Channel → Channel) : (s.mapChannels f).freeDraws = s.freeDraws :=
  rfl
@[simp] theorem State.mapChannels_pending (s : State) (f : Channel → Channel) : (s.mapChannels f).pending = s.pending :=
  rfl

@[simp] theorem State.mapLoops_resetLow (s : State) (f : Loop → Loop) : (s.mapLoops f).resetLow = s.resetLow := rfl
@[simp] theorem State.mapLoops_poweringUp (s : State) (f : Loop → Loop) : (s.mapLoops f).poweringUp = s.poweringUp :=
  rfl
@[simp] theorem State.mapLoops_restartLow (s : State) (f : Loop → Loop) : (s.mapLoops f).restartLow = s.restartLow :=
  rfl
@[simp] theorem State.mapLoops_alertPin (s : State) (f : Loop → Loop) : (s.mapLoops f).alertPin = s.alertPin := rfl
@[simp] theorem State.mapLoops_divider (s : State) (f : Loop → Loop) : (s.mapLoops f).divider = s.divider := rfl
@[simp] theorem State.mapLoops_north (s : State) (f : Loop → Loop) : (s.mapLoops f).north = s.north := rfl
@[simp] theorem State.mapLoops_south (s : State) (f : Loop → Loop) : (s.mapLoops f).south = s.south := rfl
@[simp] theorem State.mapLoops_settings (s : State) (f : Loop → Loop) : (s.mapLoops f).settings = s.settings := rfl
@[simp] theorem State.mapLoops_channels (s : State) (f : Loop → Loop) : (s.mapLoops f).channels = s.channels := rfl
@[simp] theorem State.mapLoops_missList (s : State) (f : Loop → Loop) : (s.mapLoops f).missList = s.missList := rfl
@[simp] theorem State.mapLoops_misses (s : State) (f : Loop → Loop) : (s.mapLoops f).misses = s.misses := rfl
@[simp] theorem State.mapLoops_alarms (s : State) (f : Loop → Loop) : (s.mapLoops f).alarms = s.alarms := rfl
@[simp] theorem State.mapLoops_nextSeq (s : State) (f : Loop → Loop) : (s.mapLoops f).nextSeq = s.nextSeq := rfl
@[simp] theorem State.mapLoops_abandoned (s : State) (f : Loop → Loop) : (s.mapLoops f).abandoned = s.abandoned := rfl
@[simp] theorem State.mapLoops_northFifo (s : State) (f : Loop → Loop) : (s.mapLoops f).northFifo = s.northFifo := rfl
@[simp] theorem State.mapLoops_southFifo (s : State) (f : Loop → Loop) : (s.mapLoops f).southFifo = s.southFifo := rfl
@[simp] theorem State.mapLoops_responses (s : State) (f : Loop → Loop) : (s.mapLoops f).responses = s.responses := rfl
@[simp] theorem State.mapLoops_reserved (s : State) (f : Loop → Loop) : (s.mapLoops f).reserved = s.reserved := rfl
@[simp] theorem State.mapLoops_lastWinner (s : State) (f : Loop → Loop) : (s.mapLoops f).lastWinner = s.lastWinner :=
  rfl
@[simp] theorem State.mapLoops_lastServed (s : State) (f : Loop → Loop) : (s.mapLoops f).lastServed = s.lastServed :=
  rfl
@[simp] theorem State.mapLoops_northOverflow (s : State) (f : Loop → Loop) : (s.mapLoops f).northOverflow = s.northOverflow :=
  rfl
@[simp] theorem State.mapLoops_southOverflow (s : State) (f : Loop → Loop) : (s.mapLoops f).southOverflow = s.southOverflow :=
  rfl
@[simp] theorem State.mapLoops_requests (s : State) (f : Loop → Loop) : (s.mapLoops f).requests = s.requests := rfl
@[simp] theorem State.mapLoops_reqDiscards (s : State) (f : Loop → Loop) : (s.mapLoops f).reqDiscards = s.reqDiscards :=
  rfl
@[simp] theorem State.mapLoops_agent (s : State) (f : Loop → Loop) : (s.mapLoops f).agent = s.agent := rfl
@[simp] theorem State.mapLoops_session (s : State) (f : Loop → Loop) : (s.mapLoops f).session = s.session := rfl
@[simp] theorem State.mapLoops_openCounter (s : State) (f : Loop → Loop) : (s.mapLoops f).openCounter = s.openCounter :=
  rfl
@[simp] theorem State.mapLoops_proposal (s : State) (f : Loop → Loop) : (s.mapLoops f).proposal = s.proposal := rfl
@[simp] theorem State.mapLoops_proposalTimer (s : State) (f : Loop → Loop) : (s.mapLoops f).proposalTimer = s.proposalTimer :=
  rfl
@[simp] theorem State.mapLoops_sessionTimer (s : State) (f : Loop → Loop) : (s.mapLoops f).sessionTimer = s.sessionTimer :=
  rfl
@[simp] theorem State.mapLoops_editBuffer (s : State) (f : Loop → Loop) : (s.mapLoops f).editBuffer = s.editBuffer :=
  rfl
@[simp] theorem State.mapLoops_frozen (s : State) (f : Loop → Loop) : (s.mapLoops f).frozen = s.frozen := rfl
@[simp] theorem State.mapLoops_northSent (s : State) (f : Loop → Loop) : (s.mapLoops f).northSent = s.northSent := rfl
@[simp] theorem State.mapLoops_southSent (s : State) (f : Loop → Loop) : (s.mapLoops f).southSent = s.southSent := rfl
@[simp] theorem State.mapLoops_freeDraws (s : State) (f : Loop → Loop) : (s.mapLoops f).freeDraws = s.freeDraws := rfl
@[simp] theorem State.mapLoops_pending (s : State) (f : Loop → Loop) : (s.mapLoops f).pending = s.pending := rfl

@[simp] theorem State.updateDyn_resetLow (s : State) (n : Fin Config.channelCount) (f : ChannelDynamic → ChannelDynamic) : (s.updateDyn n f).resetLow = s.resetLow :=
  rfl
@[simp] theorem State.updateDyn_poweringUp (s : State) (n : Fin Config.channelCount) (f : ChannelDynamic → ChannelDynamic) : (s.updateDyn n f).poweringUp = s.poweringUp :=
  rfl
@[simp] theorem State.updateDyn_restartLow (s : State) (n : Fin Config.channelCount) (f : ChannelDynamic → ChannelDynamic) : (s.updateDyn n f).restartLow = s.restartLow :=
  rfl
@[simp] theorem State.updateDyn_alertPin (s : State) (n : Fin Config.channelCount) (f : ChannelDynamic → ChannelDynamic) : (s.updateDyn n f).alertPin = s.alertPin :=
  rfl
@[simp] theorem State.updateDyn_divider (s : State) (n : Fin Config.channelCount) (f : ChannelDynamic → ChannelDynamic) : (s.updateDyn n f).divider = s.divider :=
  rfl
@[simp] theorem State.updateDyn_north (s : State) (n : Fin Config.channelCount) (f : ChannelDynamic → ChannelDynamic) : (s.updateDyn n f).north = s.north :=
  rfl
@[simp] theorem State.updateDyn_south (s : State) (n : Fin Config.channelCount) (f : ChannelDynamic → ChannelDynamic) : (s.updateDyn n f).south = s.south :=
  rfl
@[simp] theorem State.updateDyn_settings (s : State) (n : Fin Config.channelCount) (f : ChannelDynamic → ChannelDynamic) : (s.updateDyn n f).settings = s.settings :=
  rfl
@[simp] theorem State.updateDyn_missList (s : State) (n : Fin Config.channelCount) (f : ChannelDynamic → ChannelDynamic) : (s.updateDyn n f).missList = s.missList :=
  rfl
@[simp] theorem State.updateDyn_misses (s : State) (n : Fin Config.channelCount) (f : ChannelDynamic → ChannelDynamic) : (s.updateDyn n f).misses = s.misses :=
  rfl
@[simp] theorem State.updateDyn_alarms (s : State) (n : Fin Config.channelCount) (f : ChannelDynamic → ChannelDynamic) : (s.updateDyn n f).alarms = s.alarms :=
  rfl
@[simp] theorem State.updateDyn_nextSeq (s : State) (n : Fin Config.channelCount) (f : ChannelDynamic → ChannelDynamic) : (s.updateDyn n f).nextSeq = s.nextSeq :=
  rfl
@[simp] theorem State.updateDyn_abandoned (s : State) (n : Fin Config.channelCount) (f : ChannelDynamic → ChannelDynamic) : (s.updateDyn n f).abandoned = s.abandoned :=
  rfl
@[simp] theorem State.updateDyn_loops (s : State) (n : Fin Config.channelCount) (f : ChannelDynamic → ChannelDynamic) : (s.updateDyn n f).loops = s.loops :=
  rfl
@[simp] theorem State.updateDyn_northFifo (s : State) (n : Fin Config.channelCount) (f : ChannelDynamic → ChannelDynamic) : (s.updateDyn n f).northFifo = s.northFifo :=
  rfl
@[simp] theorem State.updateDyn_southFifo (s : State) (n : Fin Config.channelCount) (f : ChannelDynamic → ChannelDynamic) : (s.updateDyn n f).southFifo = s.southFifo :=
  rfl
@[simp] theorem State.updateDyn_responses (s : State) (n : Fin Config.channelCount) (f : ChannelDynamic → ChannelDynamic) : (s.updateDyn n f).responses = s.responses :=
  rfl
@[simp] theorem State.updateDyn_reserved (s : State) (n : Fin Config.channelCount) (f : ChannelDynamic → ChannelDynamic) : (s.updateDyn n f).reserved = s.reserved :=
  rfl
@[simp] theorem State.updateDyn_lastWinner (s : State) (n : Fin Config.channelCount) (f : ChannelDynamic → ChannelDynamic) : (s.updateDyn n f).lastWinner = s.lastWinner :=
  rfl
@[simp] theorem State.updateDyn_lastServed (s : State) (n : Fin Config.channelCount) (f : ChannelDynamic → ChannelDynamic) : (s.updateDyn n f).lastServed = s.lastServed :=
  rfl
@[simp] theorem State.updateDyn_northOverflow (s : State) (n : Fin Config.channelCount) (f : ChannelDynamic → ChannelDynamic) : (s.updateDyn n f).northOverflow = s.northOverflow :=
  rfl
@[simp] theorem State.updateDyn_southOverflow (s : State) (n : Fin Config.channelCount) (f : ChannelDynamic → ChannelDynamic) : (s.updateDyn n f).southOverflow = s.southOverflow :=
  rfl
@[simp] theorem State.updateDyn_requests (s : State) (n : Fin Config.channelCount) (f : ChannelDynamic → ChannelDynamic) : (s.updateDyn n f).requests = s.requests :=
  rfl
@[simp] theorem State.updateDyn_reqDiscards (s : State) (n : Fin Config.channelCount) (f : ChannelDynamic → ChannelDynamic) : (s.updateDyn n f).reqDiscards = s.reqDiscards :=
  rfl
@[simp] theorem State.updateDyn_agent (s : State) (n : Fin Config.channelCount) (f : ChannelDynamic → ChannelDynamic) : (s.updateDyn n f).agent = s.agent :=
  rfl
@[simp] theorem State.updateDyn_session (s : State) (n : Fin Config.channelCount) (f : ChannelDynamic → ChannelDynamic) : (s.updateDyn n f).session = s.session :=
  rfl
@[simp] theorem State.updateDyn_openCounter (s : State) (n : Fin Config.channelCount) (f : ChannelDynamic → ChannelDynamic) : (s.updateDyn n f).openCounter = s.openCounter :=
  rfl
@[simp] theorem State.updateDyn_proposal (s : State) (n : Fin Config.channelCount) (f : ChannelDynamic → ChannelDynamic) : (s.updateDyn n f).proposal = s.proposal :=
  rfl
@[simp] theorem State.updateDyn_proposalTimer (s : State) (n : Fin Config.channelCount) (f : ChannelDynamic → ChannelDynamic) : (s.updateDyn n f).proposalTimer = s.proposalTimer :=
  rfl
@[simp] theorem State.updateDyn_sessionTimer (s : State) (n : Fin Config.channelCount) (f : ChannelDynamic → ChannelDynamic) : (s.updateDyn n f).sessionTimer = s.sessionTimer :=
  rfl
@[simp] theorem State.updateDyn_editBuffer (s : State) (n : Fin Config.channelCount) (f : ChannelDynamic → ChannelDynamic) : (s.updateDyn n f).editBuffer = s.editBuffer :=
  rfl
@[simp] theorem State.updateDyn_frozen (s : State) (n : Fin Config.channelCount) (f : ChannelDynamic → ChannelDynamic) : (s.updateDyn n f).frozen = s.frozen :=
  rfl
@[simp] theorem State.updateDyn_northSent (s : State) (n : Fin Config.channelCount) (f : ChannelDynamic → ChannelDynamic) : (s.updateDyn n f).northSent = s.northSent :=
  rfl
@[simp] theorem State.updateDyn_southSent (s : State) (n : Fin Config.channelCount) (f : ChannelDynamic → ChannelDynamic) : (s.updateDyn n f).southSent = s.southSent :=
  rfl
@[simp] theorem State.updateDyn_freeDraws (s : State) (n : Fin Config.channelCount) (f : ChannelDynamic → ChannelDynamic) : (s.updateDyn n f).freeDraws = s.freeDraws :=
  rfl
@[simp] theorem State.updateDyn_pending (s : State) (n : Fin Config.channelCount) (f : ChannelDynamic → ChannelDynamic) : (s.updateDyn n f).pending = s.pending :=
  rfl

@[simp] theorem State.withAlarms_resetLow (s : State) (q : List AlarmRecord) : (s.withAlarms q).resetLow = s.resetLow :=
  rfl
@[simp] theorem State.withAlarms_poweringUp (s : State) (q : List AlarmRecord) : (s.withAlarms q).poweringUp = s.poweringUp :=
  rfl
@[simp] theorem State.withAlarms_restartLow (s : State) (q : List AlarmRecord) : (s.withAlarms q).restartLow = s.restartLow :=
  rfl
@[simp] theorem State.withAlarms_divider (s : State) (q : List AlarmRecord) : (s.withAlarms q).divider = s.divider :=
  rfl
@[simp] theorem State.withAlarms_north (s : State) (q : List AlarmRecord) : (s.withAlarms q).north = s.north := rfl
@[simp] theorem State.withAlarms_south (s : State) (q : List AlarmRecord) : (s.withAlarms q).south = s.south := rfl
@[simp] theorem State.withAlarms_settings (s : State) (q : List AlarmRecord) : (s.withAlarms q).settings = s.settings :=
  rfl
@[simp] theorem State.withAlarms_channels (s : State) (q : List AlarmRecord) : (s.withAlarms q).channels = s.channels :=
  rfl
@[simp] theorem State.withAlarms_missList (s : State) (q : List AlarmRecord) : (s.withAlarms q).missList = s.missList :=
  rfl
@[simp] theorem State.withAlarms_misses (s : State) (q : List AlarmRecord) : (s.withAlarms q).misses = s.misses := rfl
@[simp] theorem State.withAlarms_nextSeq (s : State) (q : List AlarmRecord) : (s.withAlarms q).nextSeq = s.nextSeq :=
  rfl
@[simp] theorem State.withAlarms_abandoned (s : State) (q : List AlarmRecord) : (s.withAlarms q).abandoned = s.abandoned :=
  rfl
@[simp] theorem State.withAlarms_loops (s : State) (q : List AlarmRecord) : (s.withAlarms q).loops = s.loops := rfl
@[simp] theorem State.withAlarms_northFifo (s : State) (q : List AlarmRecord) : (s.withAlarms q).northFifo = s.northFifo :=
  rfl
@[simp] theorem State.withAlarms_southFifo (s : State) (q : List AlarmRecord) : (s.withAlarms q).southFifo = s.southFifo :=
  rfl
@[simp] theorem State.withAlarms_responses (s : State) (q : List AlarmRecord) : (s.withAlarms q).responses = s.responses :=
  rfl
@[simp] theorem State.withAlarms_reserved (s : State) (q : List AlarmRecord) : (s.withAlarms q).reserved = s.reserved :=
  rfl
@[simp] theorem State.withAlarms_lastWinner (s : State) (q : List AlarmRecord) : (s.withAlarms q).lastWinner = s.lastWinner :=
  rfl
@[simp] theorem State.withAlarms_lastServed (s : State) (q : List AlarmRecord) : (s.withAlarms q).lastServed = s.lastServed :=
  rfl
@[simp] theorem State.withAlarms_northOverflow (s : State) (q : List AlarmRecord) : (s.withAlarms q).northOverflow = s.northOverflow :=
  rfl
@[simp] theorem State.withAlarms_southOverflow (s : State) (q : List AlarmRecord) : (s.withAlarms q).southOverflow = s.southOverflow :=
  rfl
@[simp] theorem State.withAlarms_requests (s : State) (q : List AlarmRecord) : (s.withAlarms q).requests = s.requests :=
  rfl
@[simp] theorem State.withAlarms_reqDiscards (s : State) (q : List AlarmRecord) : (s.withAlarms q).reqDiscards = s.reqDiscards :=
  rfl
@[simp] theorem State.withAlarms_agent (s : State) (q : List AlarmRecord) : (s.withAlarms q).agent = s.agent := rfl
@[simp] theorem State.withAlarms_session (s : State) (q : List AlarmRecord) : (s.withAlarms q).session = s.session :=
  rfl
@[simp] theorem State.withAlarms_openCounter (s : State) (q : List AlarmRecord) : (s.withAlarms q).openCounter = s.openCounter :=
  rfl
@[simp] theorem State.withAlarms_proposal (s : State) (q : List AlarmRecord) : (s.withAlarms q).proposal = s.proposal :=
  rfl
@[simp] theorem State.withAlarms_proposalTimer (s : State) (q : List AlarmRecord) : (s.withAlarms q).proposalTimer = s.proposalTimer :=
  rfl
@[simp] theorem State.withAlarms_sessionTimer (s : State) (q : List AlarmRecord) : (s.withAlarms q).sessionTimer = s.sessionTimer :=
  rfl
@[simp] theorem State.withAlarms_editBuffer (s : State) (q : List AlarmRecord) : (s.withAlarms q).editBuffer = s.editBuffer :=
  rfl
@[simp] theorem State.withAlarms_frozen (s : State) (q : List AlarmRecord) : (s.withAlarms q).frozen = s.frozen := rfl
@[simp] theorem State.withAlarms_northSent (s : State) (q : List AlarmRecord) : (s.withAlarms q).northSent = s.northSent :=
  rfl
@[simp] theorem State.withAlarms_southSent (s : State) (q : List AlarmRecord) : (s.withAlarms q).southSent = s.southSent :=
  rfl
@[simp] theorem State.withAlarms_freeDraws (s : State) (q : List AlarmRecord) : (s.withAlarms q).freeDraws = s.freeDraws :=
  rfl
@[simp] theorem State.withAlarms_pending (s : State) (q : List AlarmRecord) : (s.withAlarms q).pending = s.pending :=
  rfl

@[simp] theorem State.dropAlarms_resetLow (s : State) (p : AlarmRecord → Bool) : (s.dropAlarms p).resetLow = s.resetLow :=
  rfl
@[simp] theorem State.dropAlarms_poweringUp (s : State) (p : AlarmRecord → Bool) : (s.dropAlarms p).poweringUp = s.poweringUp :=
  rfl
@[simp] theorem State.dropAlarms_restartLow (s : State) (p : AlarmRecord → Bool) : (s.dropAlarms p).restartLow = s.restartLow :=
  rfl
@[simp] theorem State.dropAlarms_divider (s : State) (p : AlarmRecord → Bool) : (s.dropAlarms p).divider = s.divider :=
  rfl
@[simp] theorem State.dropAlarms_north (s : State) (p : AlarmRecord → Bool) : (s.dropAlarms p).north = s.north := rfl
@[simp] theorem State.dropAlarms_south (s : State) (p : AlarmRecord → Bool) : (s.dropAlarms p).south = s.south := rfl
@[simp] theorem State.dropAlarms_settings (s : State) (p : AlarmRecord → Bool) : (s.dropAlarms p).settings = s.settings :=
  rfl
@[simp] theorem State.dropAlarms_channels (s : State) (p : AlarmRecord → Bool) : (s.dropAlarms p).channels = s.channels :=
  rfl
@[simp] theorem State.dropAlarms_missList (s : State) (p : AlarmRecord → Bool) : (s.dropAlarms p).missList = s.missList :=
  rfl
@[simp] theorem State.dropAlarms_misses (s : State) (p : AlarmRecord → Bool) : (s.dropAlarms p).misses = s.misses :=
  rfl
@[simp] theorem State.dropAlarms_nextSeq (s : State) (p : AlarmRecord → Bool) : (s.dropAlarms p).nextSeq = s.nextSeq :=
  rfl
@[simp] theorem State.dropAlarms_abandoned (s : State) (p : AlarmRecord → Bool) : (s.dropAlarms p).abandoned = s.abandoned :=
  rfl
@[simp] theorem State.dropAlarms_loops (s : State) (p : AlarmRecord → Bool) : (s.dropAlarms p).loops = s.loops := rfl
@[simp] theorem State.dropAlarms_northFifo (s : State) (p : AlarmRecord → Bool) : (s.dropAlarms p).northFifo = s.northFifo :=
  rfl
@[simp] theorem State.dropAlarms_southFifo (s : State) (p : AlarmRecord → Bool) : (s.dropAlarms p).southFifo = s.southFifo :=
  rfl
@[simp] theorem State.dropAlarms_responses (s : State) (p : AlarmRecord → Bool) : (s.dropAlarms p).responses = s.responses :=
  rfl
@[simp] theorem State.dropAlarms_reserved (s : State) (p : AlarmRecord → Bool) : (s.dropAlarms p).reserved = s.reserved :=
  rfl
@[simp] theorem State.dropAlarms_lastWinner (s : State) (p : AlarmRecord → Bool) : (s.dropAlarms p).lastWinner = s.lastWinner :=
  rfl
@[simp] theorem State.dropAlarms_lastServed (s : State) (p : AlarmRecord → Bool) : (s.dropAlarms p).lastServed = s.lastServed :=
  rfl
@[simp] theorem State.dropAlarms_northOverflow (s : State) (p : AlarmRecord → Bool) : (s.dropAlarms p).northOverflow = s.northOverflow :=
  rfl
@[simp] theorem State.dropAlarms_southOverflow (s : State) (p : AlarmRecord → Bool) : (s.dropAlarms p).southOverflow = s.southOverflow :=
  rfl
@[simp] theorem State.dropAlarms_requests (s : State) (p : AlarmRecord → Bool) : (s.dropAlarms p).requests = s.requests :=
  rfl
@[simp] theorem State.dropAlarms_reqDiscards (s : State) (p : AlarmRecord → Bool) : (s.dropAlarms p).reqDiscards = s.reqDiscards :=
  rfl
@[simp] theorem State.dropAlarms_agent (s : State) (p : AlarmRecord → Bool) : (s.dropAlarms p).agent = s.agent := rfl
@[simp] theorem State.dropAlarms_session (s : State) (p : AlarmRecord → Bool) : (s.dropAlarms p).session = s.session :=
  rfl
@[simp] theorem State.dropAlarms_openCounter (s : State) (p : AlarmRecord → Bool) : (s.dropAlarms p).openCounter = s.openCounter :=
  rfl
@[simp] theorem State.dropAlarms_proposal (s : State) (p : AlarmRecord → Bool) : (s.dropAlarms p).proposal = s.proposal :=
  rfl
@[simp] theorem State.dropAlarms_proposalTimer (s : State) (p : AlarmRecord → Bool) : (s.dropAlarms p).proposalTimer = s.proposalTimer :=
  rfl
@[simp] theorem State.dropAlarms_sessionTimer (s : State) (p : AlarmRecord → Bool) : (s.dropAlarms p).sessionTimer = s.sessionTimer :=
  rfl
@[simp] theorem State.dropAlarms_editBuffer (s : State) (p : AlarmRecord → Bool) : (s.dropAlarms p).editBuffer = s.editBuffer :=
  rfl
@[simp] theorem State.dropAlarms_frozen (s : State) (p : AlarmRecord → Bool) : (s.dropAlarms p).frozen = s.frozen :=
  rfl
@[simp] theorem State.dropAlarms_northSent (s : State) (p : AlarmRecord → Bool) : (s.dropAlarms p).northSent = s.northSent :=
  rfl
@[simp] theorem State.dropAlarms_southSent (s : State) (p : AlarmRecord → Bool) : (s.dropAlarms p).southSent = s.southSent :=
  rfl
@[simp] theorem State.dropAlarms_freeDraws (s : State) (p : AlarmRecord → Bool) : (s.dropAlarms p).freeDraws = s.freeDraws :=
  rfl
@[simp] theorem State.dropAlarms_pending (s : State) (p : AlarmRecord → Bool) : (s.dropAlarms p).pending = s.pending :=
  rfl

@[simp] theorem State.appendAlarm_resetLow (s : State) (a : Alarm) : (s.appendAlarm a).resetLow = s.resetLow := rfl
@[simp] theorem State.appendAlarm_poweringUp (s : State) (a : Alarm) : (s.appendAlarm a).poweringUp = s.poweringUp :=
  rfl
@[simp] theorem State.appendAlarm_restartLow (s : State) (a : Alarm) : (s.appendAlarm a).restartLow = s.restartLow :=
  rfl
@[simp] theorem State.appendAlarm_divider (s : State) (a : Alarm) : (s.appendAlarm a).divider = s.divider := rfl
@[simp] theorem State.appendAlarm_north (s : State) (a : Alarm) : (s.appendAlarm a).north = s.north := rfl
@[simp] theorem State.appendAlarm_south (s : State) (a : Alarm) : (s.appendAlarm a).south = s.south := rfl
@[simp] theorem State.appendAlarm_settings (s : State) (a : Alarm) : (s.appendAlarm a).settings = s.settings := rfl
@[simp] theorem State.appendAlarm_channels (s : State) (a : Alarm) : (s.appendAlarm a).channels = s.channels := rfl
@[simp] theorem State.appendAlarm_missList (s : State) (a : Alarm) : (s.appendAlarm a).missList = s.missList := rfl
@[simp] theorem State.appendAlarm_misses (s : State) (a : Alarm) : (s.appendAlarm a).misses = s.misses := rfl
@[simp] theorem State.appendAlarm_abandoned (s : State) (a : Alarm) : (s.appendAlarm a).abandoned = s.abandoned := rfl
@[simp] theorem State.appendAlarm_loops (s : State) (a : Alarm) : (s.appendAlarm a).loops = s.loops := rfl
@[simp] theorem State.appendAlarm_northFifo (s : State) (a : Alarm) : (s.appendAlarm a).northFifo = s.northFifo := rfl
@[simp] theorem State.appendAlarm_southFifo (s : State) (a : Alarm) : (s.appendAlarm a).southFifo = s.southFifo := rfl
@[simp] theorem State.appendAlarm_responses (s : State) (a : Alarm) : (s.appendAlarm a).responses = s.responses := rfl
@[simp] theorem State.appendAlarm_reserved (s : State) (a : Alarm) : (s.appendAlarm a).reserved = s.reserved := rfl
@[simp] theorem State.appendAlarm_lastWinner (s : State) (a : Alarm) : (s.appendAlarm a).lastWinner = s.lastWinner :=
  rfl
@[simp] theorem State.appendAlarm_lastServed (s : State) (a : Alarm) : (s.appendAlarm a).lastServed = s.lastServed :=
  rfl
@[simp] theorem State.appendAlarm_northOverflow (s : State) (a : Alarm) : (s.appendAlarm a).northOverflow = s.northOverflow :=
  rfl
@[simp] theorem State.appendAlarm_southOverflow (s : State) (a : Alarm) : (s.appendAlarm a).southOverflow = s.southOverflow :=
  rfl
@[simp] theorem State.appendAlarm_requests (s : State) (a : Alarm) : (s.appendAlarm a).requests = s.requests := rfl
@[simp] theorem State.appendAlarm_reqDiscards (s : State) (a : Alarm) : (s.appendAlarm a).reqDiscards = s.reqDiscards :=
  rfl
@[simp] theorem State.appendAlarm_agent (s : State) (a : Alarm) : (s.appendAlarm a).agent = s.agent := rfl
@[simp] theorem State.appendAlarm_session (s : State) (a : Alarm) : (s.appendAlarm a).session = s.session := rfl
@[simp] theorem State.appendAlarm_openCounter (s : State) (a : Alarm) : (s.appendAlarm a).openCounter = s.openCounter :=
  rfl
@[simp] theorem State.appendAlarm_proposal (s : State) (a : Alarm) : (s.appendAlarm a).proposal = s.proposal := rfl
@[simp] theorem State.appendAlarm_proposalTimer (s : State) (a : Alarm) : (s.appendAlarm a).proposalTimer = s.proposalTimer :=
  rfl
@[simp] theorem State.appendAlarm_sessionTimer (s : State) (a : Alarm) : (s.appendAlarm a).sessionTimer = s.sessionTimer :=
  rfl
@[simp] theorem State.appendAlarm_editBuffer (s : State) (a : Alarm) : (s.appendAlarm a).editBuffer = s.editBuffer :=
  rfl
@[simp] theorem State.appendAlarm_frozen (s : State) (a : Alarm) : (s.appendAlarm a).frozen = s.frozen := rfl
@[simp] theorem State.appendAlarm_northSent (s : State) (a : Alarm) : (s.appendAlarm a).northSent = s.northSent := rfl
@[simp] theorem State.appendAlarm_southSent (s : State) (a : Alarm) : (s.appendAlarm a).southSent = s.southSent := rfl
@[simp] theorem State.appendAlarm_freeDraws (s : State) (a : Alarm) : (s.appendAlarm a).freeDraws = s.freeDraws := rfl
@[simp] theorem State.appendAlarm_pending (s : State) (a : Alarm) : (s.appendAlarm a).pending = s.pending := rfl

@[simp] theorem State.raise_resetLow (s : State) (a : Alarm) : (s.raise a).resetLow = s.resetLow := by
  rw [s.raise_frame a]
@[simp] theorem State.raise_poweringUp (s : State) (a : Alarm) : (s.raise a).poweringUp = s.poweringUp := by
  rw [s.raise_frame a]
@[simp] theorem State.raise_restartLow (s : State) (a : Alarm) : (s.raise a).restartLow = s.restartLow := by
  rw [s.raise_frame a]
@[simp] theorem State.raise_divider (s : State) (a : Alarm) : (s.raise a).divider = s.divider := by
  rw [s.raise_frame a]
@[simp] theorem State.raise_north (s : State) (a : Alarm) : (s.raise a).north = s.north := by rw [s.raise_frame a]
@[simp] theorem State.raise_south (s : State) (a : Alarm) : (s.raise a).south = s.south := by rw [s.raise_frame a]
@[simp] theorem State.raise_settings (s : State) (a : Alarm) : (s.raise a).settings = s.settings := by
  rw [s.raise_frame a]
@[simp] theorem State.raise_channels (s : State) (a : Alarm) : (s.raise a).channels = s.channels := by
  rw [s.raise_frame a]
@[simp] theorem State.raise_missList (s : State) (a : Alarm) : (s.raise a).missList = s.missList := by
  rw [s.raise_frame a]
@[simp] theorem State.raise_misses (s : State) (a : Alarm) : (s.raise a).misses = s.misses := by rw [s.raise_frame a]
@[simp] theorem State.raise_abandoned (s : State) (a : Alarm) : (s.raise a).abandoned = s.abandoned := by
  rw [s.raise_frame a]
@[simp] theorem State.raise_loops (s : State) (a : Alarm) : (s.raise a).loops = s.loops := by rw [s.raise_frame a]
@[simp] theorem State.raise_northFifo (s : State) (a : Alarm) : (s.raise a).northFifo = s.northFifo := by
  rw [s.raise_frame a]
@[simp] theorem State.raise_southFifo (s : State) (a : Alarm) : (s.raise a).southFifo = s.southFifo := by
  rw [s.raise_frame a]
@[simp] theorem State.raise_responses (s : State) (a : Alarm) : (s.raise a).responses = s.responses := by
  rw [s.raise_frame a]
@[simp] theorem State.raise_reserved (s : State) (a : Alarm) : (s.raise a).reserved = s.reserved := by
  rw [s.raise_frame a]
@[simp] theorem State.raise_lastWinner (s : State) (a : Alarm) : (s.raise a).lastWinner = s.lastWinner := by
  rw [s.raise_frame a]
@[simp] theorem State.raise_lastServed (s : State) (a : Alarm) : (s.raise a).lastServed = s.lastServed := by
  rw [s.raise_frame a]
@[simp] theorem State.raise_northOverflow (s : State) (a : Alarm) : (s.raise a).northOverflow = s.northOverflow := by
  rw [s.raise_frame a]
@[simp] theorem State.raise_southOverflow (s : State) (a : Alarm) : (s.raise a).southOverflow = s.southOverflow := by
  rw [s.raise_frame a]
@[simp] theorem State.raise_requests (s : State) (a : Alarm) : (s.raise a).requests = s.requests := by
  rw [s.raise_frame a]
@[simp] theorem State.raise_reqDiscards (s : State) (a : Alarm) : (s.raise a).reqDiscards = s.reqDiscards := by
  rw [s.raise_frame a]
@[simp] theorem State.raise_agent (s : State) (a : Alarm) : (s.raise a).agent = s.agent := by rw [s.raise_frame a]
@[simp] theorem State.raise_session (s : State) (a : Alarm) : (s.raise a).session = s.session := by
  rw [s.raise_frame a]
@[simp] theorem State.raise_openCounter (s : State) (a : Alarm) : (s.raise a).openCounter = s.openCounter := by
  rw [s.raise_frame a]
@[simp] theorem State.raise_proposal (s : State) (a : Alarm) : (s.raise a).proposal = s.proposal := by
  rw [s.raise_frame a]
@[simp] theorem State.raise_proposalTimer (s : State) (a : Alarm) : (s.raise a).proposalTimer = s.proposalTimer := by
  rw [s.raise_frame a]
@[simp] theorem State.raise_sessionTimer (s : State) (a : Alarm) : (s.raise a).sessionTimer = s.sessionTimer := by
  rw [s.raise_frame a]
@[simp] theorem State.raise_editBuffer (s : State) (a : Alarm) : (s.raise a).editBuffer = s.editBuffer := by
  rw [s.raise_frame a]
@[simp] theorem State.raise_frozen (s : State) (a : Alarm) : (s.raise a).frozen = s.frozen := by rw [s.raise_frame a]
@[simp] theorem State.raise_northSent (s : State) (a : Alarm) : (s.raise a).northSent = s.northSent := by
  rw [s.raise_frame a]
@[simp] theorem State.raise_southSent (s : State) (a : Alarm) : (s.raise a).southSent = s.southSent := by
  rw [s.raise_frame a]
@[simp] theorem State.raise_freeDraws (s : State) (a : Alarm) : (s.raise a).freeDraws = s.freeDraws := by
  rw [s.raise_frame a]
@[simp] theorem State.raise_pending (s : State) (a : Alarm) : (s.raise a).pending = s.pending := by
  rw [s.raise_frame a]

@[simp] theorem State.handNorth_resetLow (s : State) (c : Cell) : (s.handNorth c).resetLow = s.resetLow := by
  rw [s.handNorth_frame c]
@[simp] theorem State.handNorth_poweringUp (s : State) (c : Cell) : (s.handNorth c).poweringUp = s.poweringUp := by
  rw [s.handNorth_frame c]
@[simp] theorem State.handNorth_restartLow (s : State) (c : Cell) : (s.handNorth c).restartLow = s.restartLow := by
  rw [s.handNorth_frame c]
@[simp] theorem State.handNorth_alertPin (s : State) (c : Cell) : (s.handNorth c).alertPin = s.alertPin := by
  rw [s.handNorth_frame c]
@[simp] theorem State.handNorth_divider (s : State) (c : Cell) : (s.handNorth c).divider = s.divider := by
  rw [s.handNorth_frame c]
@[simp] theorem State.handNorth_north (s : State) (c : Cell) : (s.handNorth c).north = s.north := by
  rw [s.handNorth_frame c]
@[simp] theorem State.handNorth_south (s : State) (c : Cell) : (s.handNorth c).south = s.south := by
  rw [s.handNorth_frame c]
@[simp] theorem State.handNorth_settings (s : State) (c : Cell) : (s.handNorth c).settings = s.settings := by
  rw [s.handNorth_frame c]
@[simp] theorem State.handNorth_channels (s : State) (c : Cell) : (s.handNorth c).channels = s.channels := by
  rw [s.handNorth_frame c]
@[simp] theorem State.handNorth_missList (s : State) (c : Cell) : (s.handNorth c).missList = s.missList := by
  rw [s.handNorth_frame c]
@[simp] theorem State.handNorth_misses (s : State) (c : Cell) : (s.handNorth c).misses = s.misses := by
  rw [s.handNorth_frame c]
@[simp] theorem State.handNorth_alarms (s : State) (c : Cell) : (s.handNorth c).alarms = s.alarms := by
  rw [s.handNorth_frame c]
@[simp] theorem State.handNorth_nextSeq (s : State) (c : Cell) : (s.handNorth c).nextSeq = s.nextSeq := by
  rw [s.handNorth_frame c]
@[simp] theorem State.handNorth_abandoned (s : State) (c : Cell) : (s.handNorth c).abandoned = s.abandoned := by
  rw [s.handNorth_frame c]
@[simp] theorem State.handNorth_loops (s : State) (c : Cell) : (s.handNorth c).loops = s.loops := by
  rw [s.handNorth_frame c]
@[simp] theorem State.handNorth_southFifo (s : State) (c : Cell) : (s.handNorth c).southFifo = s.southFifo := by
  rw [s.handNorth_frame c]
@[simp] theorem State.handNorth_responses (s : State) (c : Cell) : (s.handNorth c).responses = s.responses := by
  rw [s.handNorth_frame c]
@[simp] theorem State.handNorth_reserved (s : State) (c : Cell) : (s.handNorth c).reserved = s.reserved := by
  rw [s.handNorth_frame c]
@[simp] theorem State.handNorth_lastWinner (s : State) (c : Cell) : (s.handNorth c).lastWinner = s.lastWinner := by
  rw [s.handNorth_frame c]
@[simp] theorem State.handNorth_lastServed (s : State) (c : Cell) : (s.handNorth c).lastServed = s.lastServed := by
  rw [s.handNorth_frame c]
@[simp] theorem State.handNorth_southOverflow (s : State) (c : Cell) : (s.handNorth c).southOverflow = s.southOverflow := by
  rw [s.handNorth_frame c]
@[simp] theorem State.handNorth_requests (s : State) (c : Cell) : (s.handNorth c).requests = s.requests := by
  rw [s.handNorth_frame c]
@[simp] theorem State.handNorth_reqDiscards (s : State) (c : Cell) : (s.handNorth c).reqDiscards = s.reqDiscards := by
  rw [s.handNorth_frame c]
@[simp] theorem State.handNorth_agent (s : State) (c : Cell) : (s.handNorth c).agent = s.agent := by
  rw [s.handNorth_frame c]
@[simp] theorem State.handNorth_session (s : State) (c : Cell) : (s.handNorth c).session = s.session := by
  rw [s.handNorth_frame c]
@[simp] theorem State.handNorth_openCounter (s : State) (c : Cell) : (s.handNorth c).openCounter = s.openCounter := by
  rw [s.handNorth_frame c]
@[simp] theorem State.handNorth_proposal (s : State) (c : Cell) : (s.handNorth c).proposal = s.proposal := by
  rw [s.handNorth_frame c]
@[simp] theorem State.handNorth_proposalTimer (s : State) (c : Cell) : (s.handNorth c).proposalTimer = s.proposalTimer := by
  rw [s.handNorth_frame c]
@[simp] theorem State.handNorth_sessionTimer (s : State) (c : Cell) : (s.handNorth c).sessionTimer = s.sessionTimer := by
  rw [s.handNorth_frame c]
@[simp] theorem State.handNorth_editBuffer (s : State) (c : Cell) : (s.handNorth c).editBuffer = s.editBuffer := by
  rw [s.handNorth_frame c]
@[simp] theorem State.handNorth_frozen (s : State) (c : Cell) : (s.handNorth c).frozen = s.frozen := by
  rw [s.handNorth_frame c]
@[simp] theorem State.handNorth_northSent (s : State) (c : Cell) : (s.handNorth c).northSent = s.northSent := by
  rw [s.handNorth_frame c]
@[simp] theorem State.handNorth_southSent (s : State) (c : Cell) : (s.handNorth c).southSent = s.southSent := by
  rw [s.handNorth_frame c]
@[simp] theorem State.handNorth_freeDraws (s : State) (c : Cell) : (s.handNorth c).freeDraws = s.freeDraws := by
  rw [s.handNorth_frame c]
@[simp] theorem State.handNorth_pending (s : State) (c : Cell) : (s.handNorth c).pending = s.pending := by
  rw [s.handNorth_frame c]

@[simp] theorem State.handSouth_resetLow (s : State) (c : Cell) : (s.handSouth c).resetLow = s.resetLow := by
  rw [s.handSouth_frame c]
@[simp] theorem State.handSouth_poweringUp (s : State) (c : Cell) : (s.handSouth c).poweringUp = s.poweringUp := by
  rw [s.handSouth_frame c]
@[simp] theorem State.handSouth_restartLow (s : State) (c : Cell) : (s.handSouth c).restartLow = s.restartLow := by
  rw [s.handSouth_frame c]
@[simp] theorem State.handSouth_alertPin (s : State) (c : Cell) : (s.handSouth c).alertPin = s.alertPin := by
  rw [s.handSouth_frame c]
@[simp] theorem State.handSouth_divider (s : State) (c : Cell) : (s.handSouth c).divider = s.divider := by
  rw [s.handSouth_frame c]
@[simp] theorem State.handSouth_north (s : State) (c : Cell) : (s.handSouth c).north = s.north := by
  rw [s.handSouth_frame c]
@[simp] theorem State.handSouth_south (s : State) (c : Cell) : (s.handSouth c).south = s.south := by
  rw [s.handSouth_frame c]
@[simp] theorem State.handSouth_settings (s : State) (c : Cell) : (s.handSouth c).settings = s.settings := by
  rw [s.handSouth_frame c]
@[simp] theorem State.handSouth_channels (s : State) (c : Cell) : (s.handSouth c).channels = s.channels := by
  rw [s.handSouth_frame c]
@[simp] theorem State.handSouth_missList (s : State) (c : Cell) : (s.handSouth c).missList = s.missList := by
  rw [s.handSouth_frame c]
@[simp] theorem State.handSouth_misses (s : State) (c : Cell) : (s.handSouth c).misses = s.misses := by
  rw [s.handSouth_frame c]
@[simp] theorem State.handSouth_alarms (s : State) (c : Cell) : (s.handSouth c).alarms = s.alarms := by
  rw [s.handSouth_frame c]
@[simp] theorem State.handSouth_nextSeq (s : State) (c : Cell) : (s.handSouth c).nextSeq = s.nextSeq := by
  rw [s.handSouth_frame c]
@[simp] theorem State.handSouth_abandoned (s : State) (c : Cell) : (s.handSouth c).abandoned = s.abandoned := by
  rw [s.handSouth_frame c]
@[simp] theorem State.handSouth_loops (s : State) (c : Cell) : (s.handSouth c).loops = s.loops := by
  rw [s.handSouth_frame c]
@[simp] theorem State.handSouth_northFifo (s : State) (c : Cell) : (s.handSouth c).northFifo = s.northFifo := by
  rw [s.handSouth_frame c]
@[simp] theorem State.handSouth_responses (s : State) (c : Cell) : (s.handSouth c).responses = s.responses := by
  rw [s.handSouth_frame c]
@[simp] theorem State.handSouth_reserved (s : State) (c : Cell) : (s.handSouth c).reserved = s.reserved := by
  rw [s.handSouth_frame c]
@[simp] theorem State.handSouth_lastWinner (s : State) (c : Cell) : (s.handSouth c).lastWinner = s.lastWinner := by
  rw [s.handSouth_frame c]
@[simp] theorem State.handSouth_lastServed (s : State) (c : Cell) : (s.handSouth c).lastServed = s.lastServed := by
  rw [s.handSouth_frame c]
@[simp] theorem State.handSouth_northOverflow (s : State) (c : Cell) : (s.handSouth c).northOverflow = s.northOverflow := by
  rw [s.handSouth_frame c]
@[simp] theorem State.handSouth_requests (s : State) (c : Cell) : (s.handSouth c).requests = s.requests := by
  rw [s.handSouth_frame c]
@[simp] theorem State.handSouth_reqDiscards (s : State) (c : Cell) : (s.handSouth c).reqDiscards = s.reqDiscards := by
  rw [s.handSouth_frame c]
@[simp] theorem State.handSouth_agent (s : State) (c : Cell) : (s.handSouth c).agent = s.agent := by
  rw [s.handSouth_frame c]
@[simp] theorem State.handSouth_session (s : State) (c : Cell) : (s.handSouth c).session = s.session := by
  rw [s.handSouth_frame c]
@[simp] theorem State.handSouth_openCounter (s : State) (c : Cell) : (s.handSouth c).openCounter = s.openCounter := by
  rw [s.handSouth_frame c]
@[simp] theorem State.handSouth_proposal (s : State) (c : Cell) : (s.handSouth c).proposal = s.proposal := by
  rw [s.handSouth_frame c]
@[simp] theorem State.handSouth_proposalTimer (s : State) (c : Cell) : (s.handSouth c).proposalTimer = s.proposalTimer := by
  rw [s.handSouth_frame c]
@[simp] theorem State.handSouth_sessionTimer (s : State) (c : Cell) : (s.handSouth c).sessionTimer = s.sessionTimer := by
  rw [s.handSouth_frame c]
@[simp] theorem State.handSouth_editBuffer (s : State) (c : Cell) : (s.handSouth c).editBuffer = s.editBuffer := by
  rw [s.handSouth_frame c]
@[simp] theorem State.handSouth_frozen (s : State) (c : Cell) : (s.handSouth c).frozen = s.frozen := by
  rw [s.handSouth_frame c]
@[simp] theorem State.handSouth_northSent (s : State) (c : Cell) : (s.handSouth c).northSent = s.northSent := by
  rw [s.handSouth_frame c]
@[simp] theorem State.handSouth_southSent (s : State) (c : Cell) : (s.handSouth c).southSent = s.southSent := by
  rw [s.handSouth_frame c]
@[simp] theorem State.handSouth_freeDraws (s : State) (c : Cell) : (s.handSouth c).freeDraws = s.freeDraws := by
  rw [s.handSouth_frame c]
@[simp] theorem State.handSouth_pending (s : State) (c : Cell) : (s.handSouth c).pending = s.pending := by
  rw [s.handSouth_frame c]

@[simp] theorem State.withReceiver_resetLow (s : State) (p : Port) (r : Receiver) : (s.withReceiver p r).resetLow = s.resetLow := by
  cases p <;> rfl
@[simp] theorem State.withReceiver_poweringUp (s : State) (p : Port) (r : Receiver) : (s.withReceiver p r).poweringUp = s.poweringUp := by
  cases p <;> rfl
@[simp] theorem State.withReceiver_restartLow (s : State) (p : Port) (r : Receiver) : (s.withReceiver p r).restartLow = s.restartLow := by
  cases p <;> rfl
@[simp] theorem State.withReceiver_alertPin (s : State) (p : Port) (r : Receiver) : (s.withReceiver p r).alertPin = s.alertPin := by
  cases p <;> rfl
@[simp] theorem State.withReceiver_divider (s : State) (p : Port) (r : Receiver) : (s.withReceiver p r).divider = s.divider := by
  cases p <;> rfl
@[simp] theorem State.withReceiver_settings (s : State) (p : Port) (r : Receiver) : (s.withReceiver p r).settings = s.settings := by
  cases p <;> rfl
@[simp] theorem State.withReceiver_channels (s : State) (p : Port) (r : Receiver) : (s.withReceiver p r).channels = s.channels := by
  cases p <;> rfl
@[simp] theorem State.withReceiver_missList (s : State) (p : Port) (r : Receiver) : (s.withReceiver p r).missList = s.missList := by
  cases p <;> rfl
@[simp] theorem State.withReceiver_misses (s : State) (p : Port) (r : Receiver) : (s.withReceiver p r).misses = s.misses := by
  cases p <;> rfl
@[simp] theorem State.withReceiver_alarms (s : State) (p : Port) (r : Receiver) : (s.withReceiver p r).alarms = s.alarms := by
  cases p <;> rfl
@[simp] theorem State.withReceiver_nextSeq (s : State) (p : Port) (r : Receiver) : (s.withReceiver p r).nextSeq = s.nextSeq := by
  cases p <;> rfl
@[simp] theorem State.withReceiver_abandoned (s : State) (p : Port) (r : Receiver) : (s.withReceiver p r).abandoned = s.abandoned := by
  cases p <;> rfl
@[simp] theorem State.withReceiver_loops (s : State) (p : Port) (r : Receiver) : (s.withReceiver p r).loops = s.loops := by
  cases p <;> rfl
@[simp] theorem State.withReceiver_northFifo (s : State) (p : Port) (r : Receiver) : (s.withReceiver p r).northFifo = s.northFifo := by
  cases p <;> rfl
@[simp] theorem State.withReceiver_southFifo (s : State) (p : Port) (r : Receiver) : (s.withReceiver p r).southFifo = s.southFifo := by
  cases p <;> rfl
@[simp] theorem State.withReceiver_responses (s : State) (p : Port) (r : Receiver) : (s.withReceiver p r).responses = s.responses := by
  cases p <;> rfl
@[simp] theorem State.withReceiver_reserved (s : State) (p : Port) (r : Receiver) : (s.withReceiver p r).reserved = s.reserved := by
  cases p <;> rfl
@[simp] theorem State.withReceiver_lastWinner (s : State) (p : Port) (r : Receiver) : (s.withReceiver p r).lastWinner = s.lastWinner := by
  cases p <;> rfl
@[simp] theorem State.withReceiver_lastServed (s : State) (p : Port) (r : Receiver) : (s.withReceiver p r).lastServed = s.lastServed := by
  cases p <;> rfl
@[simp] theorem State.withReceiver_northOverflow (s : State) (p : Port) (r : Receiver) : (s.withReceiver p r).northOverflow = s.northOverflow := by
  cases p <;> rfl
@[simp] theorem State.withReceiver_southOverflow (s : State) (p : Port) (r : Receiver) : (s.withReceiver p r).southOverflow = s.southOverflow := by
  cases p <;> rfl
@[simp] theorem State.withReceiver_requests (s : State) (p : Port) (r : Receiver) : (s.withReceiver p r).requests = s.requests := by
  cases p <;> rfl
@[simp] theorem State.withReceiver_reqDiscards (s : State) (p : Port) (r : Receiver) : (s.withReceiver p r).reqDiscards = s.reqDiscards := by
  cases p <;> rfl
@[simp] theorem State.withReceiver_agent (s : State) (p : Port) (r : Receiver) : (s.withReceiver p r).agent = s.agent := by
  cases p <;> rfl
@[simp] theorem State.withReceiver_session (s : State) (p : Port) (r : Receiver) : (s.withReceiver p r).session = s.session := by
  cases p <;> rfl
@[simp] theorem State.withReceiver_openCounter (s : State) (p : Port) (r : Receiver) : (s.withReceiver p r).openCounter = s.openCounter := by
  cases p <;> rfl
@[simp] theorem State.withReceiver_proposal (s : State) (p : Port) (r : Receiver) : (s.withReceiver p r).proposal = s.proposal := by
  cases p <;> rfl
@[simp] theorem State.withReceiver_proposalTimer (s : State) (p : Port) (r : Receiver) : (s.withReceiver p r).proposalTimer = s.proposalTimer := by
  cases p <;> rfl
@[simp] theorem State.withReceiver_sessionTimer (s : State) (p : Port) (r : Receiver) : (s.withReceiver p r).sessionTimer = s.sessionTimer := by
  cases p <;> rfl
@[simp] theorem State.withReceiver_editBuffer (s : State) (p : Port) (r : Receiver) : (s.withReceiver p r).editBuffer = s.editBuffer := by
  cases p <;> rfl
@[simp] theorem State.withReceiver_frozen (s : State) (p : Port) (r : Receiver) : (s.withReceiver p r).frozen = s.frozen := by
  cases p <;> rfl
@[simp] theorem State.withReceiver_northSent (s : State) (p : Port) (r : Receiver) : (s.withReceiver p r).northSent = s.northSent := by
  cases p <;> rfl
@[simp] theorem State.withReceiver_southSent (s : State) (p : Port) (r : Receiver) : (s.withReceiver p r).southSent = s.southSent := by
  cases p <;> rfl
@[simp] theorem State.withReceiver_freeDraws (s : State) (p : Port) (r : Receiver) : (s.withReceiver p r).freeDraws = s.freeDraws := by
  cases p <;> rfl
@[simp] theorem State.withReceiver_pending (s : State) (p : Port) (r : Receiver) : (s.withReceiver p r).pending = s.pending := by
  cases p <;> rfl

@[simp] theorem State.sendNorth_resetLow (s : State) (c : Cell) : (s.sendNorth c).resetLow = s.resetLow := rfl
@[simp] theorem State.sendNorth_poweringUp (s : State) (c : Cell) : (s.sendNorth c).poweringUp = s.poweringUp := rfl
@[simp] theorem State.sendNorth_restartLow (s : State) (c : Cell) : (s.sendNorth c).restartLow = s.restartLow := rfl
@[simp] theorem State.sendNorth_alertPin (s : State) (c : Cell) : (s.sendNorth c).alertPin = s.alertPin := rfl
@[simp] theorem State.sendNorth_divider (s : State) (c : Cell) : (s.sendNorth c).divider = s.divider := rfl
@[simp] theorem State.sendNorth_north (s : State) (c : Cell) : (s.sendNorth c).north = s.north := rfl
@[simp] theorem State.sendNorth_south (s : State) (c : Cell) : (s.sendNorth c).south = s.south := rfl
@[simp] theorem State.sendNorth_settings (s : State) (c : Cell) : (s.sendNorth c).settings = s.settings := rfl
@[simp] theorem State.sendNorth_channels (s : State) (c : Cell) : (s.sendNorth c).channels = s.channels := rfl
@[simp] theorem State.sendNorth_missList (s : State) (c : Cell) : (s.sendNorth c).missList = s.missList := rfl
@[simp] theorem State.sendNorth_misses (s : State) (c : Cell) : (s.sendNorth c).misses = s.misses := rfl
@[simp] theorem State.sendNorth_alarms (s : State) (c : Cell) : (s.sendNorth c).alarms = s.alarms := rfl
@[simp] theorem State.sendNorth_nextSeq (s : State) (c : Cell) : (s.sendNorth c).nextSeq = s.nextSeq := rfl
@[simp] theorem State.sendNorth_abandoned (s : State) (c : Cell) : (s.sendNorth c).abandoned = s.abandoned := rfl
@[simp] theorem State.sendNorth_loops (s : State) (c : Cell) : (s.sendNorth c).loops = s.loops := rfl
@[simp] theorem State.sendNorth_northFifo (s : State) (c : Cell) : (s.sendNorth c).northFifo = s.northFifo := rfl
@[simp] theorem State.sendNorth_southFifo (s : State) (c : Cell) : (s.sendNorth c).southFifo = s.southFifo := rfl
@[simp] theorem State.sendNorth_responses (s : State) (c : Cell) : (s.sendNorth c).responses = s.responses := rfl
@[simp] theorem State.sendNorth_reserved (s : State) (c : Cell) : (s.sendNorth c).reserved = s.reserved := rfl
@[simp] theorem State.sendNorth_lastWinner (s : State) (c : Cell) : (s.sendNorth c).lastWinner = s.lastWinner := rfl
@[simp] theorem State.sendNorth_lastServed (s : State) (c : Cell) : (s.sendNorth c).lastServed = s.lastServed := rfl
@[simp] theorem State.sendNorth_northOverflow (s : State) (c : Cell) : (s.sendNorth c).northOverflow = s.northOverflow :=
  rfl
@[simp] theorem State.sendNorth_southOverflow (s : State) (c : Cell) : (s.sendNorth c).southOverflow = s.southOverflow :=
  rfl
@[simp] theorem State.sendNorth_requests (s : State) (c : Cell) : (s.sendNorth c).requests = s.requests := rfl
@[simp] theorem State.sendNorth_reqDiscards (s : State) (c : Cell) : (s.sendNorth c).reqDiscards = s.reqDiscards := rfl
@[simp] theorem State.sendNorth_agent (s : State) (c : Cell) : (s.sendNorth c).agent = s.agent := rfl
@[simp] theorem State.sendNorth_session (s : State) (c : Cell) : (s.sendNorth c).session = s.session := rfl
@[simp] theorem State.sendNorth_openCounter (s : State) (c : Cell) : (s.sendNorth c).openCounter = s.openCounter := rfl
@[simp] theorem State.sendNorth_proposal (s : State) (c : Cell) : (s.sendNorth c).proposal = s.proposal := rfl
@[simp] theorem State.sendNorth_proposalTimer (s : State) (c : Cell) : (s.sendNorth c).proposalTimer = s.proposalTimer :=
  rfl
@[simp] theorem State.sendNorth_sessionTimer (s : State) (c : Cell) : (s.sendNorth c).sessionTimer = s.sessionTimer :=
  rfl
@[simp] theorem State.sendNorth_editBuffer (s : State) (c : Cell) : (s.sendNorth c).editBuffer = s.editBuffer := rfl
@[simp] theorem State.sendNorth_frozen (s : State) (c : Cell) : (s.sendNorth c).frozen = s.frozen := rfl
@[simp] theorem State.sendNorth_southSent (s : State) (c : Cell) : (s.sendNorth c).southSent = s.southSent := rfl
@[simp] theorem State.sendNorth_freeDraws (s : State) (c : Cell) : (s.sendNorth c).freeDraws = s.freeDraws := rfl
@[simp] theorem State.sendNorth_pending (s : State) (c : Cell) : (s.sendNorth c).pending = s.pending := rfl

@[simp] theorem State.sendSouth_resetLow (s : State) (c : Cell) : (s.sendSouth c).resetLow = s.resetLow := rfl
@[simp] theorem State.sendSouth_poweringUp (s : State) (c : Cell) : (s.sendSouth c).poweringUp = s.poweringUp := rfl
@[simp] theorem State.sendSouth_restartLow (s : State) (c : Cell) : (s.sendSouth c).restartLow = s.restartLow := rfl
@[simp] theorem State.sendSouth_alertPin (s : State) (c : Cell) : (s.sendSouth c).alertPin = s.alertPin := rfl
@[simp] theorem State.sendSouth_divider (s : State) (c : Cell) : (s.sendSouth c).divider = s.divider := rfl
@[simp] theorem State.sendSouth_north (s : State) (c : Cell) : (s.sendSouth c).north = s.north := rfl
@[simp] theorem State.sendSouth_south (s : State) (c : Cell) : (s.sendSouth c).south = s.south := rfl
@[simp] theorem State.sendSouth_settings (s : State) (c : Cell) : (s.sendSouth c).settings = s.settings := rfl
@[simp] theorem State.sendSouth_channels (s : State) (c : Cell) : (s.sendSouth c).channels = s.channels := rfl
@[simp] theorem State.sendSouth_missList (s : State) (c : Cell) : (s.sendSouth c).missList = s.missList := rfl
@[simp] theorem State.sendSouth_misses (s : State) (c : Cell) : (s.sendSouth c).misses = s.misses := rfl
@[simp] theorem State.sendSouth_alarms (s : State) (c : Cell) : (s.sendSouth c).alarms = s.alarms := rfl
@[simp] theorem State.sendSouth_nextSeq (s : State) (c : Cell) : (s.sendSouth c).nextSeq = s.nextSeq := rfl
@[simp] theorem State.sendSouth_abandoned (s : State) (c : Cell) : (s.sendSouth c).abandoned = s.abandoned := rfl
@[simp] theorem State.sendSouth_loops (s : State) (c : Cell) : (s.sendSouth c).loops = s.loops := rfl
@[simp] theorem State.sendSouth_northFifo (s : State) (c : Cell) : (s.sendSouth c).northFifo = s.northFifo := rfl
@[simp] theorem State.sendSouth_southFifo (s : State) (c : Cell) : (s.sendSouth c).southFifo = s.southFifo := rfl
@[simp] theorem State.sendSouth_responses (s : State) (c : Cell) : (s.sendSouth c).responses = s.responses := rfl
@[simp] theorem State.sendSouth_reserved (s : State) (c : Cell) : (s.sendSouth c).reserved = s.reserved := rfl
@[simp] theorem State.sendSouth_lastWinner (s : State) (c : Cell) : (s.sendSouth c).lastWinner = s.lastWinner := rfl
@[simp] theorem State.sendSouth_lastServed (s : State) (c : Cell) : (s.sendSouth c).lastServed = s.lastServed := rfl
@[simp] theorem State.sendSouth_northOverflow (s : State) (c : Cell) : (s.sendSouth c).northOverflow = s.northOverflow :=
  rfl
@[simp] theorem State.sendSouth_southOverflow (s : State) (c : Cell) : (s.sendSouth c).southOverflow = s.southOverflow :=
  rfl
@[simp] theorem State.sendSouth_requests (s : State) (c : Cell) : (s.sendSouth c).requests = s.requests := rfl
@[simp] theorem State.sendSouth_reqDiscards (s : State) (c : Cell) : (s.sendSouth c).reqDiscards = s.reqDiscards := rfl
@[simp] theorem State.sendSouth_agent (s : State) (c : Cell) : (s.sendSouth c).agent = s.agent := rfl
@[simp] theorem State.sendSouth_session (s : State) (c : Cell) : (s.sendSouth c).session = s.session := rfl
@[simp] theorem State.sendSouth_openCounter (s : State) (c : Cell) : (s.sendSouth c).openCounter = s.openCounter := rfl
@[simp] theorem State.sendSouth_proposal (s : State) (c : Cell) : (s.sendSouth c).proposal = s.proposal := rfl
@[simp] theorem State.sendSouth_proposalTimer (s : State) (c : Cell) : (s.sendSouth c).proposalTimer = s.proposalTimer :=
  rfl
@[simp] theorem State.sendSouth_sessionTimer (s : State) (c : Cell) : (s.sendSouth c).sessionTimer = s.sessionTimer :=
  rfl
@[simp] theorem State.sendSouth_editBuffer (s : State) (c : Cell) : (s.sendSouth c).editBuffer = s.editBuffer := rfl
@[simp] theorem State.sendSouth_frozen (s : State) (c : Cell) : (s.sendSouth c).frozen = s.frozen := rfl
@[simp] theorem State.sendSouth_northSent (s : State) (c : Cell) : (s.sendSouth c).northSent = s.northSent := rfl
@[simp] theorem State.sendSouth_freeDraws (s : State) (c : Cell) : (s.sendSouth c).freeDraws = s.freeDraws := rfl
@[simp] theorem State.sendSouth_pending (s : State) (c : Cell) : (s.sendSouth c).pending = s.pending := rfl

@[simp] theorem State.placeResponse_resetLow (s : State) (c : Cell) : (s.placeResponse c).resetLow = s.resetLow := by
  unfold State.placeResponse; split <;> rfl
@[simp] theorem State.placeResponse_poweringUp (s : State) (c : Cell) : (s.placeResponse c).poweringUp = s.poweringUp := by
  unfold State.placeResponse; split <;> rfl
@[simp] theorem State.placeResponse_restartLow (s : State) (c : Cell) : (s.placeResponse c).restartLow = s.restartLow := by
  unfold State.placeResponse; split <;> rfl
@[simp] theorem State.placeResponse_alertPin (s : State) (c : Cell) : (s.placeResponse c).alertPin = s.alertPin := by
  unfold State.placeResponse; split <;> rfl
@[simp] theorem State.placeResponse_divider (s : State) (c : Cell) : (s.placeResponse c).divider = s.divider := by
  unfold State.placeResponse; split <;> rfl
@[simp] theorem State.placeResponse_north (s : State) (c : Cell) : (s.placeResponse c).north = s.north := by
  unfold State.placeResponse; split <;> rfl
@[simp] theorem State.placeResponse_south (s : State) (c : Cell) : (s.placeResponse c).south = s.south := by
  unfold State.placeResponse; split <;> rfl
@[simp] theorem State.placeResponse_settings (s : State) (c : Cell) : (s.placeResponse c).settings = s.settings := by
  unfold State.placeResponse; split <;> rfl
@[simp] theorem State.placeResponse_channels (s : State) (c : Cell) : (s.placeResponse c).channels = s.channels := by
  unfold State.placeResponse; split <;> rfl
@[simp] theorem State.placeResponse_missList (s : State) (c : Cell) : (s.placeResponse c).missList = s.missList := by
  unfold State.placeResponse; split <;> rfl
@[simp] theorem State.placeResponse_misses (s : State) (c : Cell) : (s.placeResponse c).misses = s.misses := by
  unfold State.placeResponse; split <;> rfl
@[simp] theorem State.placeResponse_alarms (s : State) (c : Cell) : (s.placeResponse c).alarms = s.alarms := by
  unfold State.placeResponse; split <;> rfl
@[simp] theorem State.placeResponse_nextSeq (s : State) (c : Cell) : (s.placeResponse c).nextSeq = s.nextSeq := by
  unfold State.placeResponse; split <;> rfl
@[simp] theorem State.placeResponse_abandoned (s : State) (c : Cell) : (s.placeResponse c).abandoned = s.abandoned := by
  unfold State.placeResponse; split <;> rfl
@[simp] theorem State.placeResponse_loops (s : State) (c : Cell) : (s.placeResponse c).loops = s.loops := by
  unfold State.placeResponse; split <;> rfl
@[simp] theorem State.placeResponse_northFifo (s : State) (c : Cell) : (s.placeResponse c).northFifo = s.northFifo := by
  unfold State.placeResponse; split <;> rfl
@[simp] theorem State.placeResponse_southFifo (s : State) (c : Cell) : (s.placeResponse c).southFifo = s.southFifo := by
  unfold State.placeResponse; split <;> rfl
@[simp] theorem State.placeResponse_lastWinner (s : State) (c : Cell) : (s.placeResponse c).lastWinner = s.lastWinner := by
  unfold State.placeResponse; split <;> rfl
@[simp] theorem State.placeResponse_lastServed (s : State) (c : Cell) : (s.placeResponse c).lastServed = s.lastServed := by
  unfold State.placeResponse; split <;> rfl
@[simp] theorem State.placeResponse_northOverflow (s : State) (c : Cell) : (s.placeResponse c).northOverflow = s.northOverflow := by
  unfold State.placeResponse; split <;> rfl
@[simp] theorem State.placeResponse_southOverflow (s : State) (c : Cell) : (s.placeResponse c).southOverflow = s.southOverflow := by
  unfold State.placeResponse; split <;> rfl
@[simp] theorem State.placeResponse_requests (s : State) (c : Cell) : (s.placeResponse c).requests = s.requests := by
  unfold State.placeResponse; split <;> rfl
@[simp] theorem State.placeResponse_reqDiscards (s : State) (c : Cell) : (s.placeResponse c).reqDiscards = s.reqDiscards := by
  unfold State.placeResponse; split <;> rfl
@[simp] theorem State.placeResponse_agent (s : State) (c : Cell) : (s.placeResponse c).agent = s.agent := by
  unfold State.placeResponse; split <;> rfl
@[simp] theorem State.placeResponse_session (s : State) (c : Cell) : (s.placeResponse c).session = s.session := by
  unfold State.placeResponse; split <;> rfl
@[simp] theorem State.placeResponse_openCounter (s : State) (c : Cell) : (s.placeResponse c).openCounter = s.openCounter := by
  unfold State.placeResponse; split <;> rfl
@[simp] theorem State.placeResponse_proposal (s : State) (c : Cell) : (s.placeResponse c).proposal = s.proposal := by
  unfold State.placeResponse; split <;> rfl
@[simp] theorem State.placeResponse_proposalTimer (s : State) (c : Cell) : (s.placeResponse c).proposalTimer = s.proposalTimer := by
  unfold State.placeResponse; split <;> rfl
@[simp] theorem State.placeResponse_sessionTimer (s : State) (c : Cell) : (s.placeResponse c).sessionTimer = s.sessionTimer := by
  unfold State.placeResponse; split <;> rfl
@[simp] theorem State.placeResponse_editBuffer (s : State) (c : Cell) : (s.placeResponse c).editBuffer = s.editBuffer := by
  unfold State.placeResponse; split <;> rfl
@[simp] theorem State.placeResponse_frozen (s : State) (c : Cell) : (s.placeResponse c).frozen = s.frozen := by
  unfold State.placeResponse; split <;> rfl
@[simp] theorem State.placeResponse_northSent (s : State) (c : Cell) : (s.placeResponse c).northSent = s.northSent := by
  unfold State.placeResponse; split <;> rfl
@[simp] theorem State.placeResponse_southSent (s : State) (c : Cell) : (s.placeResponse c).southSent = s.southSent := by
  unfold State.placeResponse; split <;> rfl
@[simp] theorem State.placeResponse_freeDraws (s : State) (c : Cell) : (s.placeResponse c).freeDraws = s.freeDraws := by
  unfold State.placeResponse; split <;> rfl
@[simp] theorem State.placeResponse_pending (s : State) (c : Cell) : (s.placeResponse c).pending = s.pending := by
  unfold State.placeResponse; split <;> rfl

@[simp] theorem State.startSessionTimer_resetLow (s : State) : (s.startSessionTimer).resetLow = s.resetLow := by
  unfold State.startSessionTimer; split <;> rfl
@[simp] theorem State.startSessionTimer_poweringUp (s : State) : (s.startSessionTimer).poweringUp = s.poweringUp := by
  unfold State.startSessionTimer; split <;> rfl
@[simp] theorem State.startSessionTimer_restartLow (s : State) : (s.startSessionTimer).restartLow = s.restartLow := by
  unfold State.startSessionTimer; split <;> rfl
@[simp] theorem State.startSessionTimer_alertPin (s : State) : (s.startSessionTimer).alertPin = s.alertPin := by
  unfold State.startSessionTimer; split <;> rfl
@[simp] theorem State.startSessionTimer_divider (s : State) : (s.startSessionTimer).divider = s.divider := by
  unfold State.startSessionTimer; split <;> rfl
@[simp] theorem State.startSessionTimer_north (s : State) : (s.startSessionTimer).north = s.north := by
  unfold State.startSessionTimer; split <;> rfl
@[simp] theorem State.startSessionTimer_south (s : State) : (s.startSessionTimer).south = s.south := by
  unfold State.startSessionTimer; split <;> rfl
@[simp] theorem State.startSessionTimer_settings (s : State) : (s.startSessionTimer).settings = s.settings := by
  unfold State.startSessionTimer; split <;> rfl
@[simp] theorem State.startSessionTimer_channels (s : State) : (s.startSessionTimer).channels = s.channels := by
  unfold State.startSessionTimer; split <;> rfl
@[simp] theorem State.startSessionTimer_missList (s : State) : (s.startSessionTimer).missList = s.missList := by
  unfold State.startSessionTimer; split <;> rfl
@[simp] theorem State.startSessionTimer_misses (s : State) : (s.startSessionTimer).misses = s.misses := by
  unfold State.startSessionTimer; split <;> rfl
@[simp] theorem State.startSessionTimer_alarms (s : State) : (s.startSessionTimer).alarms = s.alarms := by
  unfold State.startSessionTimer; split <;> rfl
@[simp] theorem State.startSessionTimer_nextSeq (s : State) : (s.startSessionTimer).nextSeq = s.nextSeq := by
  unfold State.startSessionTimer; split <;> rfl
@[simp] theorem State.startSessionTimer_abandoned (s : State) : (s.startSessionTimer).abandoned = s.abandoned := by
  unfold State.startSessionTimer; split <;> rfl
@[simp] theorem State.startSessionTimer_loops (s : State) : (s.startSessionTimer).loops = s.loops := by
  unfold State.startSessionTimer; split <;> rfl
@[simp] theorem State.startSessionTimer_northFifo (s : State) : (s.startSessionTimer).northFifo = s.northFifo := by
  unfold State.startSessionTimer; split <;> rfl
@[simp] theorem State.startSessionTimer_southFifo (s : State) : (s.startSessionTimer).southFifo = s.southFifo := by
  unfold State.startSessionTimer; split <;> rfl
@[simp] theorem State.startSessionTimer_responses (s : State) : (s.startSessionTimer).responses = s.responses := by
  unfold State.startSessionTimer; split <;> rfl
@[simp] theorem State.startSessionTimer_reserved (s : State) : (s.startSessionTimer).reserved = s.reserved := by
  unfold State.startSessionTimer; split <;> rfl
@[simp] theorem State.startSessionTimer_lastWinner (s : State) : (s.startSessionTimer).lastWinner = s.lastWinner := by
  unfold State.startSessionTimer; split <;> rfl
@[simp] theorem State.startSessionTimer_lastServed (s : State) : (s.startSessionTimer).lastServed = s.lastServed := by
  unfold State.startSessionTimer; split <;> rfl
@[simp] theorem State.startSessionTimer_northOverflow (s : State) : (s.startSessionTimer).northOverflow = s.northOverflow := by
  unfold State.startSessionTimer; split <;> rfl
@[simp] theorem State.startSessionTimer_southOverflow (s : State) : (s.startSessionTimer).southOverflow = s.southOverflow := by
  unfold State.startSessionTimer; split <;> rfl
@[simp] theorem State.startSessionTimer_requests (s : State) : (s.startSessionTimer).requests = s.requests := by
  unfold State.startSessionTimer; split <;> rfl
@[simp] theorem State.startSessionTimer_reqDiscards (s : State) : (s.startSessionTimer).reqDiscards = s.reqDiscards := by
  unfold State.startSessionTimer; split <;> rfl
@[simp] theorem State.startSessionTimer_agent (s : State) : (s.startSessionTimer).agent = s.agent := by
  unfold State.startSessionTimer; split <;> rfl
@[simp] theorem State.startSessionTimer_session (s : State) : (s.startSessionTimer).session = s.session := by
  unfold State.startSessionTimer; split <;> rfl
@[simp] theorem State.startSessionTimer_openCounter (s : State) : (s.startSessionTimer).openCounter = s.openCounter := by
  unfold State.startSessionTimer; split <;> rfl
@[simp] theorem State.startSessionTimer_proposal (s : State) : (s.startSessionTimer).proposal = s.proposal := by
  unfold State.startSessionTimer; split <;> rfl
@[simp] theorem State.startSessionTimer_proposalTimer (s : State) : (s.startSessionTimer).proposalTimer = s.proposalTimer := by
  unfold State.startSessionTimer; split <;> rfl
@[simp] theorem State.startSessionTimer_editBuffer (s : State) : (s.startSessionTimer).editBuffer = s.editBuffer := by
  unfold State.startSessionTimer; split <;> rfl
@[simp] theorem State.startSessionTimer_frozen (s : State) : (s.startSessionTimer).frozen = s.frozen := by
  unfold State.startSessionTimer; split <;> rfl
@[simp] theorem State.startSessionTimer_northSent (s : State) : (s.startSessionTimer).northSent = s.northSent := by
  unfold State.startSessionTimer; split <;> rfl
@[simp] theorem State.startSessionTimer_southSent (s : State) : (s.startSessionTimer).southSent = s.southSent := by
  unfold State.startSessionTimer; split <;> rfl
@[simp] theorem State.startSessionTimer_freeDraws (s : State) : (s.startSessionTimer).freeDraws = s.freeDraws := by
  unfold State.startSessionTimer; split <;> rfl
@[simp] theorem State.startSessionTimer_pending (s : State) : (s.startSessionTimer).pending = s.pending := by
  unfold State.startSessionTimer; split <;> rfl

@[simp] theorem State.dropProposal_resetLow (s : State) : (s.dropProposal).resetLow = s.resetLow := rfl
@[simp] theorem State.dropProposal_poweringUp (s : State) : (s.dropProposal).poweringUp = s.poweringUp := rfl
@[simp] theorem State.dropProposal_restartLow (s : State) : (s.dropProposal).restartLow = s.restartLow := rfl
@[simp] theorem State.dropProposal_alertPin (s : State) : (s.dropProposal).alertPin = s.alertPin := rfl
@[simp] theorem State.dropProposal_divider (s : State) : (s.dropProposal).divider = s.divider := rfl
@[simp] theorem State.dropProposal_north (s : State) : (s.dropProposal).north = s.north := rfl
@[simp] theorem State.dropProposal_south (s : State) : (s.dropProposal).south = s.south := rfl
@[simp] theorem State.dropProposal_settings (s : State) : (s.dropProposal).settings = s.settings := rfl
@[simp] theorem State.dropProposal_channels (s : State) : (s.dropProposal).channels = s.channels := rfl
@[simp] theorem State.dropProposal_missList (s : State) : (s.dropProposal).missList = s.missList := rfl
@[simp] theorem State.dropProposal_misses (s : State) : (s.dropProposal).misses = s.misses := rfl
@[simp] theorem State.dropProposal_alarms (s : State) : (s.dropProposal).alarms = s.alarms := rfl
@[simp] theorem State.dropProposal_nextSeq (s : State) : (s.dropProposal).nextSeq = s.nextSeq := rfl
@[simp] theorem State.dropProposal_abandoned (s : State) : (s.dropProposal).abandoned = s.abandoned := rfl
@[simp] theorem State.dropProposal_loops (s : State) : (s.dropProposal).loops = s.loops := rfl
@[simp] theorem State.dropProposal_northFifo (s : State) : (s.dropProposal).northFifo = s.northFifo := rfl
@[simp] theorem State.dropProposal_southFifo (s : State) : (s.dropProposal).southFifo = s.southFifo := rfl
@[simp] theorem State.dropProposal_responses (s : State) : (s.dropProposal).responses = s.responses := rfl
@[simp] theorem State.dropProposal_reserved (s : State) : (s.dropProposal).reserved = s.reserved := rfl
@[simp] theorem State.dropProposal_lastWinner (s : State) : (s.dropProposal).lastWinner = s.lastWinner := rfl
@[simp] theorem State.dropProposal_lastServed (s : State) : (s.dropProposal).lastServed = s.lastServed := rfl
@[simp] theorem State.dropProposal_northOverflow (s : State) : (s.dropProposal).northOverflow = s.northOverflow := rfl
@[simp] theorem State.dropProposal_southOverflow (s : State) : (s.dropProposal).southOverflow = s.southOverflow := rfl
@[simp] theorem State.dropProposal_requests (s : State) : (s.dropProposal).requests = s.requests := rfl
@[simp] theorem State.dropProposal_reqDiscards (s : State) : (s.dropProposal).reqDiscards = s.reqDiscards := rfl
@[simp] theorem State.dropProposal_agent (s : State) : (s.dropProposal).agent = s.agent := rfl
@[simp] theorem State.dropProposal_openCounter (s : State) : (s.dropProposal).openCounter = s.openCounter := rfl
@[simp] theorem State.dropProposal_sessionTimer (s : State) : (s.dropProposal).sessionTimer = s.sessionTimer := rfl
@[simp] theorem State.dropProposal_editBuffer (s : State) : (s.dropProposal).editBuffer = s.editBuffer := rfl
@[simp] theorem State.dropProposal_frozen (s : State) : (s.dropProposal).frozen = s.frozen := rfl
@[simp] theorem State.dropProposal_northSent (s : State) : (s.dropProposal).northSent = s.northSent := rfl
@[simp] theorem State.dropProposal_southSent (s : State) : (s.dropProposal).southSent = s.southSent := rfl
@[simp] theorem State.dropProposal_freeDraws (s : State) : (s.dropProposal).freeDraws = s.freeDraws := rfl
@[simp] theorem State.dropProposal_pending (s : State) : (s.dropProposal).pending = s.pending := rfl

@[simp] theorem State.resolveProposal_resetLow (s : State) : (s.resolveProposal).resetLow = s.resetLow := by
  unfold State.resolveProposal; split <;> rfl
@[simp] theorem State.resolveProposal_poweringUp (s : State) : (s.resolveProposal).poweringUp = s.poweringUp := by
  unfold State.resolveProposal; split <;> rfl
@[simp] theorem State.resolveProposal_restartLow (s : State) : (s.resolveProposal).restartLow = s.restartLow := by
  unfold State.resolveProposal; split <;> rfl
@[simp] theorem State.resolveProposal_alertPin (s : State) : (s.resolveProposal).alertPin = s.alertPin := by
  unfold State.resolveProposal; split <;> rfl
@[simp] theorem State.resolveProposal_divider (s : State) : (s.resolveProposal).divider = s.divider := by
  unfold State.resolveProposal; split <;> rfl
@[simp] theorem State.resolveProposal_north (s : State) : (s.resolveProposal).north = s.north := by
  unfold State.resolveProposal; split <;> rfl
@[simp] theorem State.resolveProposal_south (s : State) : (s.resolveProposal).south = s.south := by
  unfold State.resolveProposal; split <;> rfl
@[simp] theorem State.resolveProposal_settings (s : State) : (s.resolveProposal).settings = s.settings := by
  unfold State.resolveProposal; split <;> rfl
@[simp] theorem State.resolveProposal_channels (s : State) : (s.resolveProposal).channels = s.channels := by
  unfold State.resolveProposal; split <;> rfl
@[simp] theorem State.resolveProposal_missList (s : State) : (s.resolveProposal).missList = s.missList := by
  unfold State.resolveProposal; split <;> rfl
@[simp] theorem State.resolveProposal_misses (s : State) : (s.resolveProposal).misses = s.misses := by
  unfold State.resolveProposal; split <;> rfl
@[simp] theorem State.resolveProposal_alarms (s : State) : (s.resolveProposal).alarms = s.alarms := by
  unfold State.resolveProposal; split <;> rfl
@[simp] theorem State.resolveProposal_nextSeq (s : State) : (s.resolveProposal).nextSeq = s.nextSeq := by
  unfold State.resolveProposal; split <;> rfl
@[simp] theorem State.resolveProposal_abandoned (s : State) : (s.resolveProposal).abandoned = s.abandoned := by
  unfold State.resolveProposal; split <;> rfl
@[simp] theorem State.resolveProposal_loops (s : State) : (s.resolveProposal).loops = s.loops := by
  unfold State.resolveProposal; split <;> rfl
@[simp] theorem State.resolveProposal_northFifo (s : State) : (s.resolveProposal).northFifo = s.northFifo := by
  unfold State.resolveProposal; split <;> rfl
@[simp] theorem State.resolveProposal_southFifo (s : State) : (s.resolveProposal).southFifo = s.southFifo := by
  unfold State.resolveProposal; split <;> rfl
@[simp] theorem State.resolveProposal_responses (s : State) : (s.resolveProposal).responses = s.responses := by
  unfold State.resolveProposal; split <;> rfl
@[simp] theorem State.resolveProposal_reserved (s : State) : (s.resolveProposal).reserved = s.reserved := by
  unfold State.resolveProposal; split <;> rfl
@[simp] theorem State.resolveProposal_lastWinner (s : State) : (s.resolveProposal).lastWinner = s.lastWinner := by
  unfold State.resolveProposal; split <;> rfl
@[simp] theorem State.resolveProposal_lastServed (s : State) : (s.resolveProposal).lastServed = s.lastServed := by
  unfold State.resolveProposal; split <;> rfl
@[simp] theorem State.resolveProposal_northOverflow (s : State) : (s.resolveProposal).northOverflow = s.northOverflow := by
  unfold State.resolveProposal; split <;> rfl
@[simp] theorem State.resolveProposal_southOverflow (s : State) : (s.resolveProposal).southOverflow = s.southOverflow := by
  unfold State.resolveProposal; split <;> rfl
@[simp] theorem State.resolveProposal_requests (s : State) : (s.resolveProposal).requests = s.requests := by
  unfold State.resolveProposal; split <;> rfl
@[simp] theorem State.resolveProposal_reqDiscards (s : State) : (s.resolveProposal).reqDiscards = s.reqDiscards := by
  unfold State.resolveProposal; split <;> rfl
@[simp] theorem State.resolveProposal_agent (s : State) : (s.resolveProposal).agent = s.agent := by
  unfold State.resolveProposal; split <;> rfl
@[simp] theorem State.resolveProposal_openCounter (s : State) : (s.resolveProposal).openCounter = s.openCounter := by
  unfold State.resolveProposal; split <;> rfl
@[simp] theorem State.resolveProposal_sessionTimer (s : State) : (s.resolveProposal).sessionTimer = s.sessionTimer := by
  unfold State.resolveProposal; split <;> rfl
@[simp] theorem State.resolveProposal_editBuffer (s : State) : (s.resolveProposal).editBuffer = s.editBuffer := by
  unfold State.resolveProposal; split <;> rfl
@[simp] theorem State.resolveProposal_frozen (s : State) : (s.resolveProposal).frozen = s.frozen := by
  unfold State.resolveProposal; split <;> rfl
@[simp] theorem State.resolveProposal_northSent (s : State) : (s.resolveProposal).northSent = s.northSent := by
  unfold State.resolveProposal; split <;> rfl
@[simp] theorem State.resolveProposal_southSent (s : State) : (s.resolveProposal).southSent = s.southSent := by
  unfold State.resolveProposal; split <;> rfl
@[simp] theorem State.resolveProposal_freeDraws (s : State) : (s.resolveProposal).freeDraws = s.freeDraws := by
  unfold State.resolveProposal; split <;> rfl
@[simp] theorem State.resolveProposal_pending (s : State) : (s.resolveProposal).pending = s.pending := by
  unfold State.resolveProposal; split <;> rfl

@[simp] theorem State.sourceStaleEvent_resetLow (s : State) (n : Fin Config.channelCount) : (s.sourceStaleEvent n).resetLow = s.resetLow :=
  rfl
@[simp] theorem State.sourceStaleEvent_poweringUp (s : State) (n : Fin Config.channelCount) : (s.sourceStaleEvent n).poweringUp = s.poweringUp :=
  rfl
@[simp] theorem State.sourceStaleEvent_restartLow (s : State) (n : Fin Config.channelCount) : (s.sourceStaleEvent n).restartLow = s.restartLow :=
  rfl
@[simp] theorem State.sourceStaleEvent_alertPin (s : State) (n : Fin Config.channelCount) : (s.sourceStaleEvent n).alertPin = s.alertPin :=
  rfl
@[simp] theorem State.sourceStaleEvent_divider (s : State) (n : Fin Config.channelCount) : (s.sourceStaleEvent n).divider = s.divider :=
  rfl
@[simp] theorem State.sourceStaleEvent_north (s : State) (n : Fin Config.channelCount) : (s.sourceStaleEvent n).north = s.north :=
  rfl
@[simp] theorem State.sourceStaleEvent_south (s : State) (n : Fin Config.channelCount) : (s.sourceStaleEvent n).south = s.south :=
  rfl
@[simp] theorem State.sourceStaleEvent_settings (s : State) (n : Fin Config.channelCount) : (s.sourceStaleEvent n).settings = s.settings :=
  rfl
@[simp] theorem State.sourceStaleEvent_channels (s : State) (n : Fin Config.channelCount) : (s.sourceStaleEvent n).channels = s.channels :=
  rfl
@[simp] theorem State.sourceStaleEvent_missList (s : State) (n : Fin Config.channelCount) : (s.sourceStaleEvent n).missList = s.missList :=
  rfl
@[simp] theorem State.sourceStaleEvent_misses (s : State) (n : Fin Config.channelCount) : (s.sourceStaleEvent n).misses = s.misses :=
  rfl
@[simp] theorem State.sourceStaleEvent_alarms (s : State) (n : Fin Config.channelCount) : (s.sourceStaleEvent n).alarms = s.alarms :=
  rfl
@[simp] theorem State.sourceStaleEvent_nextSeq (s : State) (n : Fin Config.channelCount) : (s.sourceStaleEvent n).nextSeq = s.nextSeq :=
  rfl
@[simp] theorem State.sourceStaleEvent_abandoned (s : State) (n : Fin Config.channelCount) : (s.sourceStaleEvent n).abandoned = s.abandoned :=
  rfl
@[simp] theorem State.sourceStaleEvent_northFifo (s : State) (n : Fin Config.channelCount) : (s.sourceStaleEvent n).northFifo = s.northFifo :=
  rfl
@[simp] theorem State.sourceStaleEvent_southFifo (s : State) (n : Fin Config.channelCount) : (s.sourceStaleEvent n).southFifo = s.southFifo :=
  rfl
@[simp] theorem State.sourceStaleEvent_responses (s : State) (n : Fin Config.channelCount) : (s.sourceStaleEvent n).responses = s.responses :=
  rfl
@[simp] theorem State.sourceStaleEvent_reserved (s : State) (n : Fin Config.channelCount) : (s.sourceStaleEvent n).reserved = s.reserved :=
  rfl
@[simp] theorem State.sourceStaleEvent_lastWinner (s : State) (n : Fin Config.channelCount) : (s.sourceStaleEvent n).lastWinner = s.lastWinner :=
  rfl
@[simp] theorem State.sourceStaleEvent_lastServed (s : State) (n : Fin Config.channelCount) : (s.sourceStaleEvent n).lastServed = s.lastServed :=
  rfl
@[simp] theorem State.sourceStaleEvent_northOverflow (s : State) (n : Fin Config.channelCount) : (s.sourceStaleEvent n).northOverflow = s.northOverflow :=
  rfl
@[simp] theorem State.sourceStaleEvent_southOverflow (s : State) (n : Fin Config.channelCount) : (s.sourceStaleEvent n).southOverflow = s.southOverflow :=
  rfl
@[simp] theorem State.sourceStaleEvent_requests (s : State) (n : Fin Config.channelCount) : (s.sourceStaleEvent n).requests = s.requests :=
  rfl
@[simp] theorem State.sourceStaleEvent_reqDiscards (s : State) (n : Fin Config.channelCount) : (s.sourceStaleEvent n).reqDiscards = s.reqDiscards :=
  rfl
@[simp] theorem State.sourceStaleEvent_agent (s : State) (n : Fin Config.channelCount) : (s.sourceStaleEvent n).agent = s.agent :=
  rfl
@[simp] theorem State.sourceStaleEvent_session (s : State) (n : Fin Config.channelCount) : (s.sourceStaleEvent n).session = s.session :=
  rfl
@[simp] theorem State.sourceStaleEvent_openCounter (s : State) (n : Fin Config.channelCount) : (s.sourceStaleEvent n).openCounter = s.openCounter :=
  rfl
@[simp] theorem State.sourceStaleEvent_proposal (s : State) (n : Fin Config.channelCount) : (s.sourceStaleEvent n).proposal = s.proposal :=
  rfl
@[simp] theorem State.sourceStaleEvent_proposalTimer (s : State) (n : Fin Config.channelCount) : (s.sourceStaleEvent n).proposalTimer = s.proposalTimer :=
  rfl
@[simp] theorem State.sourceStaleEvent_sessionTimer (s : State) (n : Fin Config.channelCount) : (s.sourceStaleEvent n).sessionTimer = s.sessionTimer :=
  rfl
@[simp] theorem State.sourceStaleEvent_editBuffer (s : State) (n : Fin Config.channelCount) : (s.sourceStaleEvent n).editBuffer = s.editBuffer :=
  rfl
@[simp] theorem State.sourceStaleEvent_frozen (s : State) (n : Fin Config.channelCount) : (s.sourceStaleEvent n).frozen = s.frozen :=
  rfl
@[simp] theorem State.sourceStaleEvent_northSent (s : State) (n : Fin Config.channelCount) : (s.sourceStaleEvent n).northSent = s.northSent :=
  rfl
@[simp] theorem State.sourceStaleEvent_southSent (s : State) (n : Fin Config.channelCount) : (s.sourceStaleEvent n).southSent = s.southSent :=
  rfl
@[simp] theorem State.sourceStaleEvent_freeDraws (s : State) (n : Fin Config.channelCount) : (s.sourceStaleEvent n).freeDraws = s.freeDraws :=
  rfl
@[simp] theorem State.sourceStaleEvent_pending (s : State) (n : Fin Config.channelCount) : (s.sourceStaleEvent n).pending = s.pending :=
  rfl

@[simp] theorem State.sourceSampleEvent_resetLow (s : State) (n : Fin Config.channelCount) : (s.sourceSampleEvent n).resetLow = s.resetLow :=
  rfl
@[simp] theorem State.sourceSampleEvent_poweringUp (s : State) (n : Fin Config.channelCount) : (s.sourceSampleEvent n).poweringUp = s.poweringUp :=
  rfl
@[simp] theorem State.sourceSampleEvent_restartLow (s : State) (n : Fin Config.channelCount) : (s.sourceSampleEvent n).restartLow = s.restartLow :=
  rfl
@[simp] theorem State.sourceSampleEvent_alertPin (s : State) (n : Fin Config.channelCount) : (s.sourceSampleEvent n).alertPin = s.alertPin :=
  rfl
@[simp] theorem State.sourceSampleEvent_divider (s : State) (n : Fin Config.channelCount) : (s.sourceSampleEvent n).divider = s.divider :=
  rfl
@[simp] theorem State.sourceSampleEvent_north (s : State) (n : Fin Config.channelCount) : (s.sourceSampleEvent n).north = s.north :=
  rfl
@[simp] theorem State.sourceSampleEvent_south (s : State) (n : Fin Config.channelCount) : (s.sourceSampleEvent n).south = s.south :=
  rfl
@[simp] theorem State.sourceSampleEvent_settings (s : State) (n : Fin Config.channelCount) : (s.sourceSampleEvent n).settings = s.settings :=
  rfl
@[simp] theorem State.sourceSampleEvent_channels (s : State) (n : Fin Config.channelCount) : (s.sourceSampleEvent n).channels = s.channels :=
  rfl
@[simp] theorem State.sourceSampleEvent_missList (s : State) (n : Fin Config.channelCount) : (s.sourceSampleEvent n).missList = s.missList :=
  rfl
@[simp] theorem State.sourceSampleEvent_misses (s : State) (n : Fin Config.channelCount) : (s.sourceSampleEvent n).misses = s.misses :=
  rfl
@[simp] theorem State.sourceSampleEvent_alarms (s : State) (n : Fin Config.channelCount) : (s.sourceSampleEvent n).alarms = s.alarms :=
  rfl
@[simp] theorem State.sourceSampleEvent_nextSeq (s : State) (n : Fin Config.channelCount) : (s.sourceSampleEvent n).nextSeq = s.nextSeq :=
  rfl
@[simp] theorem State.sourceSampleEvent_abandoned (s : State) (n : Fin Config.channelCount) : (s.sourceSampleEvent n).abandoned = s.abandoned :=
  rfl
@[simp] theorem State.sourceSampleEvent_northFifo (s : State) (n : Fin Config.channelCount) : (s.sourceSampleEvent n).northFifo = s.northFifo :=
  rfl
@[simp] theorem State.sourceSampleEvent_southFifo (s : State) (n : Fin Config.channelCount) : (s.sourceSampleEvent n).southFifo = s.southFifo :=
  rfl
@[simp] theorem State.sourceSampleEvent_responses (s : State) (n : Fin Config.channelCount) : (s.sourceSampleEvent n).responses = s.responses :=
  rfl
@[simp] theorem State.sourceSampleEvent_reserved (s : State) (n : Fin Config.channelCount) : (s.sourceSampleEvent n).reserved = s.reserved :=
  rfl
@[simp] theorem State.sourceSampleEvent_lastWinner (s : State) (n : Fin Config.channelCount) : (s.sourceSampleEvent n).lastWinner = s.lastWinner :=
  rfl
@[simp] theorem State.sourceSampleEvent_lastServed (s : State) (n : Fin Config.channelCount) : (s.sourceSampleEvent n).lastServed = s.lastServed :=
  rfl
@[simp] theorem State.sourceSampleEvent_northOverflow (s : State) (n : Fin Config.channelCount) : (s.sourceSampleEvent n).northOverflow = s.northOverflow :=
  rfl
@[simp] theorem State.sourceSampleEvent_southOverflow (s : State) (n : Fin Config.channelCount) : (s.sourceSampleEvent n).southOverflow = s.southOverflow :=
  rfl
@[simp] theorem State.sourceSampleEvent_requests (s : State) (n : Fin Config.channelCount) : (s.sourceSampleEvent n).requests = s.requests :=
  rfl
@[simp] theorem State.sourceSampleEvent_reqDiscards (s : State) (n : Fin Config.channelCount) : (s.sourceSampleEvent n).reqDiscards = s.reqDiscards :=
  rfl
@[simp] theorem State.sourceSampleEvent_agent (s : State) (n : Fin Config.channelCount) : (s.sourceSampleEvent n).agent = s.agent :=
  rfl
@[simp] theorem State.sourceSampleEvent_session (s : State) (n : Fin Config.channelCount) : (s.sourceSampleEvent n).session = s.session :=
  rfl
@[simp] theorem State.sourceSampleEvent_openCounter (s : State) (n : Fin Config.channelCount) : (s.sourceSampleEvent n).openCounter = s.openCounter :=
  rfl
@[simp] theorem State.sourceSampleEvent_proposal (s : State) (n : Fin Config.channelCount) : (s.sourceSampleEvent n).proposal = s.proposal :=
  rfl
@[simp] theorem State.sourceSampleEvent_proposalTimer (s : State) (n : Fin Config.channelCount) : (s.sourceSampleEvent n).proposalTimer = s.proposalTimer :=
  rfl
@[simp] theorem State.sourceSampleEvent_sessionTimer (s : State) (n : Fin Config.channelCount) : (s.sourceSampleEvent n).sessionTimer = s.sessionTimer :=
  rfl
@[simp] theorem State.sourceSampleEvent_editBuffer (s : State) (n : Fin Config.channelCount) : (s.sourceSampleEvent n).editBuffer = s.editBuffer :=
  rfl
@[simp] theorem State.sourceSampleEvent_frozen (s : State) (n : Fin Config.channelCount) : (s.sourceSampleEvent n).frozen = s.frozen :=
  rfl
@[simp] theorem State.sourceSampleEvent_northSent (s : State) (n : Fin Config.channelCount) : (s.sourceSampleEvent n).northSent = s.northSent :=
  rfl
@[simp] theorem State.sourceSampleEvent_southSent (s : State) (n : Fin Config.channelCount) : (s.sourceSampleEvent n).southSent = s.southSent :=
  rfl
@[simp] theorem State.sourceSampleEvent_freeDraws (s : State) (n : Fin Config.channelCount) : (s.sourceSampleEvent n).freeDraws = s.freeDraws :=
  rfl
@[simp] theorem State.sourceSampleEvent_pending (s : State) (n : Fin Config.channelCount) : (s.sourceSampleEvent n).pending = s.pending :=
  rfl

end Sys2Proof.Machine
end

