-- ==== Sys2Proof/Laws/Ops.lean ====
section
/-! SUPPORT. What each shared operation can do, said once: the holding of cold reset, searches in the tables, the Alarm
Queue's admission, the Announcer, the taking and completion of a request, and the order of expiries. -/
namespace Sys2Proof.Machine

/-! ### Happenings -/

/-- Outside cold reset a happening has its effect. -/
theorem happening_of_running {s : State} (h : s.coldHeld = false) (effect : State → State) :
    happening s effect = .next (effect s) := by
  simp [happening, h]

/-- While cold reset is held a happening changes nothing. -/
theorem happening_of_held {s : State} (h : s.coldHeld = true) (effect : State → State) : happening s effect = .next s := by
  simp [happening, h]

/-- A happening has a next state, which is the state before or the effect on it. -/
theorem happening_cases {s t : State} {effect : State → State} (h : happening s effect = .next t) :
    (s.coldHeld = true ∧ t = s) ∨ (s.coldHeld = false ∧ t = effect s) := by
  unfold happening at h
  cases hc : s.coldHeld <;> simp_all

/-- The expiry of a timer that has reached its count has its effect, outside cold reset. -/
theorem expiry_of_due {s : State} {due : State → Bool} (h : s.coldHeld = false) (hd : due s = true)
    (effect : State → State) : expiry s due effect = .next (effect s) := by
  simp [expiry, happening, h, hd]

/-- An expiry changes nothing of a timer that has not reached its count. -/
theorem expiry_of_not_due {s : State} {due : State → Bool} (hd : due s = false) (effect : State → State) :
    expiry s due effect = .next s := by
  simp [expiry, happening, hd]

/-- An expiry has a next state: the state before, or the effect on a timer that has reached its count. -/
theorem expiry_cases {s t : State} {due : State → Bool} {effect : State → State} (h : expiry s due effect = .next t) :
    t = s ∨ (due s = true ∧ t = effect s) := by
  rcases happening_cases h with ⟨-, rfl⟩ | ⟨-, rfl⟩
  · exact .inl rfl
  · by_cases hd : due s = true
    · exact .inr ⟨hd, by simp [hd]⟩
    · exact .inl (by simp [hd])

/-- A timer has reached its count exactly when no boundary is still to come. -/
@[simp] theorem reached_iff (timer : Option Nat) : reached timer = true ↔ timer = some 0 := by
  cases timer <;> simp [reached]

/-- A timer that is stopped or has boundaries still to come has not reached its count. -/
@[simp] theorem reached_eq_false_iff (timer : Option Nat) : reached timer = false ↔ timer ≠ some 0 := by
  rw [Bool.eq_false_iff, ne_eq, reached_iff]

/-- A forward refresh timer has reached its count exactly when it runs with no boundary still to come. -/
@[simp] theorem ForwardTimer.reached_iff (timer : ForwardTimer) : timer.reached = true ↔ timer = .running 0 := by
  cases timer <;> simp [ForwardTimer.reached]

/-- A forward refresh timer in any other condition has not reached its count. -/
@[simp] theorem ForwardTimer.reached_eq_false_iff (timer : ForwardTimer) : timer.reached = false ↔ timer ≠ .running 0 := by
  rw [Bool.eq_false_iff, ne_eq, ForwardTimer.reached_iff]

/-- A resend timer has reached its count exactly when it runs with no boundary still to come. -/
@[simp] theorem AlarmRecord.resendReached_iff (r : AlarmRecord) : r.resendReached = true ↔ r.resend = .running 0 := by
  unfold AlarmRecord.resendReached; split <;> simp_all

/-- A resend timer in any other condition has not reached its count. -/
@[simp] theorem AlarmRecord.resendReached_eq_false_iff (r : AlarmRecord) : r.resendReached = false ↔ r.resend ≠ .running 0 := by
  rw [Bool.eq_false_iff, ne_eq, AlarmRecord.resendReached_iff]

/-! ### Searches in the tables -/

/-- The first number of a table that `p` holds of. -/
theorem find?_finRange_eq_some {m : Nat} {p : Fin m → Bool} {n : Fin m} :
    (List.finRange m).find? p = some n ↔ p n = true ∧ ∀ j, j < n → p j = false := by
  rw [List.find?_eq_some_iff_getElem]
  constructor
  · rintro ⟨hp, i, hi, hn, hall⟩
    simp only [List.getElem_finRange] at hn hall
    subst hn
    refine ⟨hp, fun j hj => ?_⟩
    have := hall j (by simpa [Fin.lt_def] using hj)
    simpa using this
  · rintro ⟨hp, hall⟩
    refine ⟨hp, n, by simp, by simp, fun j hj => ?_⟩
    have := hall ⟨j, by omega⟩ (by simpa [Fin.lt_def] using hj)
    simpa using this

/-- The entry found is the lowest-numbered one that `p` holds of. -/
theorem State.findChannel_eq_some {s : State} {p : Fin Config.channelCount → Channel → Bool}
    {n : Fin Config.channelCount} :
    s.findChannel p = some n ↔ p n s.channels[n] = true ∧ ∀ j, j < n → p j s.channels[j] = false :=
  find?_finRange_eq_some

/-- No entry is found where `p` holds of none. -/
theorem State.findChannel_eq_none {s : State} {p : Fin Config.channelCount → Channel → Bool} :
    s.findChannel p = none ↔ ∀ n, p n s.channels[n] = false := by
  simp [State.findChannel]

/-- The loop found is the lowest-numbered one that `p` holds of. -/
theorem State.findLoop_eq_some {s : State} {p : Fin Config.loopCount → Loop → Bool} {k : Fin Config.loopCount} :
    s.findLoop p = some k ↔ p k s.loops[k] = true ∧ ∀ j, j < k → p j s.loops[j] = false :=
  find?_finRange_eq_some

/-- No loop is found where `p` holds of none. -/
theorem State.findLoop_eq_none {s : State} {p : Fin Config.loopCount → Loop → Bool} :
    s.findLoop p = none ↔ ∀ k, p k s.loops[k] = false := by
  simp [State.findLoop]

/-- The one entry that `p` holds of is found. -/
theorem State.findChannel_of_unique {s : State} {p : Fin Config.channelCount → Channel → Bool}
    {n : Fin Config.channelCount} (h : ∀ m, p m s.channels[m] = true ↔ m = n) : s.findChannel p = some n := by
  rw [State.findChannel_eq_some]
  refine ⟨(h n).2 rfl, fun j hj => ?_⟩
  by_contra hp
  have := (h j).1 (by simpa using hp)
  omega

/-- The one loop that `p` holds of is found. -/
theorem State.findLoop_of_unique {s : State} {p : Fin Config.loopCount → Loop → Bool} {k : Fin Config.loopCount}
    (h : ∀ j, p j s.loops[j] = true ↔ j = k) : s.findLoop p = some k := by
  rw [State.findLoop_eq_some]
  refine ⟨(h k).2 rfl, fun j hj => ?_⟩
  by_contra hp
  have := (h j).1 (by simpa using hp)
  omega

/-! ### Entries of an updated table -/

/-- Reading a table after one entry is set. -/
theorem getElem_set_table {α : Type} {m : Nat} (v : Vector α m) (n j : Fin m) (x : α) :
    (v.set n x)[j] = if j = n then x else v[j] := by
  simp only [Fin.getElem_fin, Vector.getElem_set, Fin.ext_iff]
  by_cases h : (n : Nat) = j
  · simp [h]
  · simp [h, Ne.symm h]

/-- Setting an entry to what it holds changes nothing. -/
theorem set_table_self {α : Type} {m : Nat} (v : Vector α m) (n : Fin m) : v.set n v[n] = v := by
  simp

/-- Two changes of one entry's dynamic part are one. -/
theorem State.updateDyn_updateDyn (s : State) (n : Fin Config.channelCount) (f g : ChannelDynamic → ChannelDynamic) :
    (s.updateDyn n f).updateDyn n g = s.updateDyn n (fun d => g (f d)) := by
  simp [State.updateDyn, State.updateChannel]

/-- Two changes of one entry are one. -/
theorem State.updateChannel_updateChannel (s : State) (n : Fin Config.channelCount) (f g : Channel → Channel) :
    (s.updateChannel n f).updateChannel n g = s.updateChannel n (fun e => g (f e)) := by
  simp [State.updateChannel]

/-! ### ALERT# -/

/-- ALERT# depends on the ALERT of the records only (R72). -/
theorem alertOf_map {f : AlarmRecord → AlarmRecord} (h : ∀ r, (f r).alert = r.alert) (q : List AlarmRecord) :
    alertOf (q.map f) = alertOf q := by
  simp only [alertOf, List.any_map]
  congr 1
  funext r
  simp [h]

@[simp] theorem alertOf_append (p q : List AlarmRecord) : alertOf (p ++ q) = (alertOf p || alertOf q) := by
  simp [alertOf]

@[simp] theorem alertOf_cons (r : AlarmRecord) (q : List AlarmRecord) : alertOf (r :: q) = (r.alert || alertOf q) := by
  simp [alertOf]

/-! ### Admission (R56 to R59) -/

/-- A coalesced alarm is absorbed by one record of its subject, and no younger record has that subject (R56). -/
theorem coalesce_eq_some {a : Alarm} {l q : List AlarmRecord} {seq : Nat} (h : coalesce a l = some (q, seq)) :
    ∃ younger r older, l = younger ++ r :: older ∧ q = younger ++ r.absorb a :: older ∧ seq = r.seq
      ∧ r.subject = a.subject ∧ r.absorbs a = true ∧ ∀ x ∈ younger, x.subject ≠ a.subject := by
  induction l generalizing q with
  | nil => simp [coalesce] at h
  | cons r older ih =>
    simp only [coalesce] at h
    split at h
    · rename_i hs
      split at h
      · rename_i ha
        simp only [Option.some.injEq, Prod.mk.injEq] at h
        exact ⟨[], r, older, rfl, h.1.symm, h.2.symm, hs, ha, by simp⟩
      · cases h
    · rename_i hs
      split at h
      · rename_i p seq' hc
        simp only [Option.some.injEq, Prod.mk.injEq] at h
        obtain ⟨rfl, rfl⟩ := h
        obtain ⟨y, x, o, rfl, rfl, rfl, h1, h2, h3⟩ := ih hc
        exact ⟨r :: y, x, o, rfl, rfl, rfl, h1, h2, by simpa [hs] using h3⟩
      · cases h

/-- The youngest record of the alarm's subject decides whether the alarm is coalesced (R56). -/
theorem coalesce_of_youngest {a : Alarm} {younger older : List AlarmRecord} {r : AlarmRecord}
    (hy : ∀ x ∈ younger, x.subject ≠ a.subject) (hr : r.subject = a.subject) :
    coalesce a (younger ++ r :: older)
      = if r.absorbs a then some (younger ++ r.absorb a :: older, r.seq) else none := by
  induction younger with
  | nil => simp [coalesce, hr]
  | cons x y ih =>
    have hx : x.subject ≠ a.subject := hy x (by simp)
    have := ih (fun z hz => hy z (by simp [hz]))
    simp only [List.cons_append, coalesce, hx, if_false, this]
    split <;> simp_all

/-- An alarm of a subject that no record has is not coalesced (R56). -/
theorem coalesce_of_no_subject {a : Alarm} {l : List AlarmRecord} (h : ∀ x ∈ l, x.subject ≠ a.subject) :
    coalesce a l = none := by
  induction l with
  | nil => rfl
  | cons x y ih =>
    simp only [coalesce, h x (by simp), if_false, ih (fun z hz => h z (by simp [hz]))]

/-- What an admission can do: the alarm is absorbed by the youngest record of its subject, or appended, or counted in the
LOST record, or the first lost one makes the LOST record (R56 to R58). -/
theorem State.takeAlarm_cases (s : State) (a : Alarm) :
    (∃ older r younger, s.alarms = older ++ r :: younger ∧ r.subject = a.subject ∧ r.absorbs a = true
        ∧ (∀ x ∈ younger, x.subject ≠ a.subject)
        ∧ s.takeAlarm a = (s.withAlarms (older ++ r.absorb a :: younger), .coalesced r.seq))
      ∨ (s.alarms.length < 31 ∧ s.takeAlarm a = (s.appendAlarm a, .appended s.takeSeq))
      ∨ (31 ≤ s.alarms.length ∧ (∃ r ∈ s.alarms, r.kind = .lost)
        ∧ s.takeAlarm a =
          (s.withAlarms (s.alarms.map (fun r => if r.kind = .lost then r.countLost a.alert else r)), .lost))
      ∨ (31 ≤ s.alarms.length ∧ (∀ r ∈ s.alarms, r.kind ≠ .lost)
        ∧ s.takeAlarm a =
          (s.appendAlarm { kind := .lost, subject := .noSubject, value := 1, alert := a.alert }, .lost)) := by
  unfold State.takeAlarm
  split
  · rename_i q seq hc
    obtain ⟨y, r, o, hl, rfl, rfl, h1, h2, h3⟩ := coalesce_eq_some hc
    refine .inl ⟨o.reverse, r, y.reverse, ?_, h1, h2, by simpa using h3, by simp⟩
    have := congrArg List.reverse hl
    simpa using this
  · right
    split
    · rename_i h
      exact .inl ⟨h, rfl⟩
    · rename_i h
      have h31 : 31 ≤ s.alarms.length := by
        simp only [Config.ordinaryAlarms] at h
        omega
      right
      unfold State.loseAlarm
      split
      · rename_i hl
        exact .inl ⟨h31, by simpa using hl, rfl⟩
      · rename_i hl
        exact .inr ⟨h31, by simpa using hl, rfl⟩

/-- An admission looks at the queue and NEXT_SEQ only: it does not see a change of an entry. -/
theorem State.takeAlarm_updateChannel (s : State) (n : Fin Config.channelCount) (f : Channel → Channel) (a : Alarm) :
    (s.updateChannel n f).takeAlarm a
      = ({ (s.takeAlarm a).1 with channels := (s.updateChannel n f).channels }, (s.takeAlarm a).2) := by
  unfold State.takeAlarm State.loseAlarm
  cases hc : coalesce a s.alarms.reverse with
  | some out =>
    rw [show coalesce a (s.updateChannel n f).alarms.reverse = some out from hc]
    rfl
  | none =>
    rw [show coalesce a (s.updateChannel n f).alarms.reverse = none from hc]
    by_cases h : s.alarms.length < Config.ordinaryAlarms
    · simp only [if_pos h, if_pos (show (s.updateChannel n f).alarms.length < Config.ordinaryAlarms from h)]
      rfl
    · simp only [if_neg h, if_neg (show ¬(s.updateChannel n f).alarms.length < Config.ordinaryAlarms from h)]
      by_cases h' : (s.alarms.any fun r => r.kind == .lost) = true
      · simp only [if_pos h', if_pos (show ((s.updateChannel n f).alarms.any fun r => r.kind == .lost) = true from h')]
        rfl
      · simp only [if_neg h', if_neg (show ¬((s.updateChannel n f).alarms.any fun r => r.kind == .lost) = true from h')]
        rfl

/-- An admission does not see a change of a loop. -/
theorem State.takeAlarm_updateLoop (s : State) (k : Fin Config.loopCount) (f : Loop → Loop) (a : Alarm) :
    (s.updateLoop k f).takeAlarm a = ({ (s.takeAlarm a).1 with loops := (s.updateLoop k f).loops }, (s.takeAlarm a).2) := by
  unfold State.takeAlarm State.loseAlarm
  cases hc : coalesce a s.alarms.reverse with
  | some out =>
    rw [show coalesce a (s.updateLoop k f).alarms.reverse = some out from hc]
    rfl
  | none =>
    rw [show coalesce a (s.updateLoop k f).alarms.reverse = none from hc]
    by_cases h : s.alarms.length < Config.ordinaryAlarms
    · simp only [if_pos h, if_pos (show (s.updateLoop k f).alarms.length < Config.ordinaryAlarms from h)]
      rfl
    · simp only [if_neg h, if_neg (show ¬(s.updateLoop k f).alarms.length < Config.ordinaryAlarms from h)]
      by_cases h' : (s.alarms.any fun r => r.kind == .lost) = true
      · simp only [if_pos h', if_pos (show ((s.updateLoop k f).alarms.any fun r => r.kind == .lost) = true from h')]
        rfl
      · simp only [if_neg h', if_neg (show ¬((s.updateLoop k f).alarms.any fun r => r.kind == .lost) = true from h')]
        rfl

/-! ### The Announcer (R60, R62) -/

/-- The record announced is the one at the lowest position that `p` holds of. -/
theorem announceFirst_eq_some {p : AlarmRecord → Bool} {resend : Nat} {l q : List AlarmRecord} {sent : AlarmRecord}
    (h : announceFirst p resend l = some (sent, q)) :
    ∃ older r younger, l = older ++ r :: younger ∧ q = older ++ r.announced resend :: younger
      ∧ sent = r.announced resend ∧ p r = true ∧ ∀ x ∈ older, p x = false := by
  induction l generalizing q with
  | nil => simp [announceFirst] at h
  | cons r younger ih =>
    simp only [announceFirst] at h
    split at h
    · rename_i hp
      simp only [Option.some.injEq, Prod.mk.injEq] at h
      exact ⟨[], r, younger, rfl, h.2.symm, h.1.symm, hp, by simp⟩
    · rename_i hp
      split at h
      · rename_i s' q' hc
        simp only [Option.some.injEq, Prod.mk.injEq] at h
        obtain ⟨rfl, rfl⟩ := h
        obtain ⟨o, x, y, rfl, rfl, rfl, h1, h2⟩ := ih hc
        exact ⟨r :: o, x, y, rfl, rfl, rfl, h1, by simpa [hp] using h2⟩
      · cases h

/-- The record at the lowest position that `p` holds of is announced. -/
theorem announceFirst_of_first {p : AlarmRecord → Bool} {resend : Nat} {older younger : List AlarmRecord}
    {r : AlarmRecord} (ho : ∀ x ∈ older, p x = false) (hr : p r = true) :
    announceFirst p resend (older ++ r :: younger)
      = some (r.announced resend, older ++ r.announced resend :: younger) := by
  induction older with
  | nil => simp [announceFirst, hr]
  | cons x o ih =>
    have := ih (fun z hz => ho z (by simp [hz]))
    simp [announceFirst, ho x (by simp), this]

/-- No record is announced where `p` holds of none. -/
theorem announceFirst_of_none {p : AlarmRecord → Bool} {resend : Nat} {l : List AlarmRecord} (h : ∀ x ∈ l, p x = false) :
    announceFirst p resend l = none := by
  induction l with
  | nil => rfl
  | cons x y ih => simp [announceFirst, h x (by simp), ih (fun z hz => h z (by simp [hz]))]

/-- What the Announcer can do: one record of the queue, NEW or DUE, is announced, in its place (R60, R62). -/
theorem announce_eq_some {resend : Nat} {l q : List AlarmRecord} {sent : AlarmRecord}
    (h : announce resend l = some (sent, q)) :
    ∃ older r younger, l = older ++ r :: younger ∧ q = older ++ r.announced resend :: younger
      ∧ sent = r.announced resend ∧ (r.phase = .new ∨ (r.phase = .sent ∧ r.resend = .due)) := by
  unfold announce at h
  split at h
  · rename_i out ho
    cases h
    obtain ⟨o, r, y, h1, h2, h3, h4, -⟩ := announceFirst_eq_some ho
    exact ⟨o, r, y, h1, h2, h3, .inl (by simpa [AlarmRecord.isNew] using h4)⟩
  · obtain ⟨o, r, y, h1, h2, h3, h4, -⟩ := announceFirst_eq_some h
    exact ⟨o, r, y, h1, h2, h3, .inr (by simpa [AlarmRecord.isDue] using h4)⟩

/-! ### Requests (R138, R139, R141) -/

/-- A taking of the Agent whose conditions hold takes the oldest request and reserves a place for its response. -/
theorem State.takeRequest_of_canTake {s : State} {c : Cell} {rest : List Cell} {row : RequestRow}
    (h : s.CanTake c rest) (hr : row.takes (Request.ofCell c) = true) (execute : State → Cell → Request → State) :
    s.takeRequest row execute
      = execute { s with requests := rest, reserved := s.reserved + 1 } c (Request.ofCell c) := by
  obtain ⟨-, ha, hq, hp⟩ := h
  simp [State.takeRequest, ha, hq, hr, State.placeFree, Config.responsePlaces, hp]

/-- What a taking can do: nothing, or the execution of the oldest request. -/
theorem State.takeRequest_cases (s : State) (row : RequestRow) (execute : State → Cell → Request → State) :
    s.takeRequest row execute = s
      ∨ ∃ c rest, s.agent = .idle ∧ s.requests = c :: rest ∧ s.reserved + s.responses.length < 4
        ∧ row.takes (Request.ofCell c) = true
        ∧ s.takeRequest row execute
            = execute { s with requests := rest, reserved := s.reserved + 1 } c (Request.ofCell c) := by
  unfold State.takeRequest
  split
  · rename_i c rest ha hq
    split
    · rename_i h
      simp only [Bool.and_eq_true, State.placeFree, Config.responsePlaces, decide_eq_true_eq] at h
      exact .inr ⟨c, rest, ha, hq, h.1, h.2, rfl⟩
    · exact .inl rfl
  · exact .inl rfl
  · exact .inl rfl

/-- The completion of a request fills the place reserved for it (R139). -/
theorem State.complete_eq (t : State) (c : Cell) (reply : Reply) :
    t.complete c reply = ({ t with reserved := t.reserved - 1 } : State).answered c reply := by
  unfold State.complete State.placeResponse State.startSessionTimer State.answered
  cases t.north.link <;> cases h : t.session <;> simp_all

/-- Gate 1 leaves a session that is not PROPOSED as it was (R141). -/
theorem State.resolveProposal_eq (s : State) : s.resolveProposal = s.pastGateOne := by
  unfold State.resolveProposal State.pastGateOne State.dropProposal
  cases h : s.session <;> simp

@[simp] theorem State.pastGateOne_of_opened {s : State} (h : s.session = .opened) : s.pastGateOne = s := by
  simp [State.pastGateOne, h]

/-- The serving of a request that gates 3 and 4 pass is its own rule and the completion (R139, R141). -/
theorem State.serve_of_passed {s : State} {g : Gates} {c : Cell} {r : Request} (h : g.refusal s.pastGateOne = none)
    (rule : State → Request → Answer) :
    s.serve g rule c r = (rule s.pastGateOne r).state.complete c (rule s.pastGateOne r).reply := by
  simp [State.serve, State.resolveProposal_eq, h]

/-- The serving of a request that gate 3 or 4 refuses is the completion with that status (R141). -/
theorem State.serve_of_refused {s : State} {g : Gates} {c : Cell} {r : Request} {st : Status}
    (h : g.refusal s.pastGateOne = some st) (rule : State → Request → Answer) :
    s.serve g rule c r = s.pastGateOne.complete c (.plain st) := by
  simp [State.serve, State.resolveProposal_eq, h]

/-! ### The order of expiries (R177) -/

/-- Ranking keeps exactly the commands it is given. -/
theorem mem_insertRanked {rank : Nat} {i : Instr} {l : List (Nat × Instr)} {c : Instr} :
    c ∈ (insertRanked rank i l).map (fun p => p.2) ↔ c = i ∨ c ∈ l.map (fun p => p.2) := by
  induction l with
  | nil => simp [insertRanked]
  | cons x rest ih =>
    obtain ⟨r, j⟩ := x
    simp only [insertRanked]
    split
    · simp
    · rw [List.map_cons, List.mem_cons, ih, List.map_cons, List.mem_cons]
      tauto

/-- Ranking keeps exactly the commands it is given. -/
theorem mem_rankAll {draw : Nat} {l : List Instr} {c : Instr} : c ∈ (rankAll draw l).map (fun p => p.2) ↔ c ∈ l := by
  induction l generalizing draw with
  | nil => simp [rankAll]
  | cons i rest ih => rw [rankAll, mem_insertRanked, ih, List.mem_cons]

end Sys2Proof.Machine
end

