-- ==== Sys2Proof/Laws/Arrivals.lean ====
section
/-! SUPPORT. What an arrival and a dispatched cell can do, said once: each invariant's proof over ARRIVAL is one case for
each line here. -/
namespace Sys2Proof.Machine

/-- The judgement of an arrival can leave a run or the count changed, bring HUNT or SYNC, or dispatch a good cell
(R105 to R108). -/
theorem State.takeArrival_cases (s : State) (p : Port) (a : Arrival) :
    (∃ r : Receiver, s.takeArrival p a = s.withReceiver p r ∧ r.link = (s.receiver p).link
        ∧ ((r.link = .hunt ∧ r.goodRun = 0 ∧ r.badRun = (s.receiver p).badRun ∧ r.crc = bump16 (s.receiver p).crc)
          ∨ (r.link = .hunt ∧ r.goodRun = (s.receiver p).goodRun + 1 ∧ r.goodRun < 8
            ∧ r.badRun = (s.receiver p).badRun ∧ r.crc = (s.receiver p).crc)
          ∨ (r.link = .sync ∧ r.goodRun = (s.receiver p).goodRun ∧ r.badRun = (s.receiver p).badRun + 1 ∧ r.badRun < 4
            ∧ r.crc = bump16 (s.receiver p).crc)))
      ∨ (∃ r : Receiver, s.takeArrival p a = (s.withReceiver p r).enterSync p ∧ (s.receiver p).link = .hunt
        ∧ r.crc = (s.receiver p).crc)
      ∨ (∃ r : Receiver, s.takeArrival p a = (s.withReceiver p r).enterHunt p ∧ (s.receiver p).link = .sync
        ∧ r.crc = bump16 (s.receiver p).crc)
      ∨ (∃ c : Cell, a = .cell c ∧ c.good = true ∧ (s.receiver p).link = .sync
        ∧ s.takeArrival p a = (s.goodTaken p).dispatch p c) := by
  have bad : ∀ a : Arrival, s.takeArrival p a = s.takeBad p →
      (∃ r : Receiver, s.takeArrival p a = s.withReceiver p r ∧ r.link = (s.receiver p).link
        ∧ ((r.link = .hunt ∧ r.goodRun = 0 ∧ r.badRun = (s.receiver p).badRun ∧ r.crc = bump16 (s.receiver p).crc)
          ∨ (r.link = .sync ∧ r.goodRun = (s.receiver p).goodRun ∧ r.badRun = (s.receiver p).badRun + 1 ∧ r.badRun < 4
            ∧ r.crc = bump16 (s.receiver p).crc)))
      ∨ (∃ r : Receiver, s.takeArrival p a = (s.withReceiver p r).enterHunt p ∧ (s.receiver p).link = .sync
        ∧ r.crc = bump16 (s.receiver p).crc) := by
    intro a ha
    rw [ha, State.takeBad]
    cases hl : (s.receiver p).link with
    | hunt => exact .inl ⟨_, rfl, rfl, .inl ⟨rfl, rfl, rfl, rfl⟩⟩
    | sync =>
      dsimp only
      split
      · exact .inl ⟨_, rfl, rfl, .inr ⟨rfl, rfl, rfl, by assumption, rfl⟩⟩
      · exact .inr ⟨_, rfl, rfl, rfl⟩
  have good : ∀ c : Cell, c.good = false → s.takeArrival p (.cell c) = s.takeBad p := by
    intro c h
    simp [State.takeArrival, h]
  have widen := fun a (h : s.takeArrival p a = s.takeBad p) => bad a h
  cases a with
  | void =>
    rcases widen .void rfl with ⟨r, h1, h2, h3 | h3⟩ | h
    · exact .inl ⟨r, h1, h2, .inl h3⟩
    · exact .inl ⟨r, h1, h2, .inr (.inr h3)⟩
    · exact .inr (.inr (.inl h))
  | cell c =>
    cases hg : c.good with
    | false =>
      rcases widen (.cell c) (good c hg) with ⟨r, h1, h2, h3 | h3⟩ | h
      · exact .inl ⟨r, h1, h2, .inl h3⟩
      · exact .inl ⟨r, h1, h2, .inr (.inr h3)⟩
      · exact .inr (.inr (.inl h))
    | true =>
      simp only [State.takeArrival, hg, if_true, State.takeGood]
      cases hl : (s.receiver p).link with
      | hunt =>
        dsimp only
        split
        · exact .inl ⟨_, rfl, rfl, .inr (.inl ⟨rfl, rfl, by assumption, rfl, rfl⟩)⟩
        · exact .inr (.inl ⟨_, rfl, rfl, rfl⟩)
      | sync => exact .inr (.inr (.inr ⟨c, rfl, hg, rfl, by simp [State.goodTaken, hl]⟩))

/-- A dispatched cell is ignored, handed on, queued or counted as a request, kept by the actuator guard, or given to the
Classifier (R113 to R117, R130). -/
theorem State.dispatch_cases (s : State) (p : Port) (c : Cell) :
    s.dispatch p c = s
      ∨ (p = .south ∧ c.kind = 1 ∧ s.dispatch p c = s.classify c)
      ∨ (∃ d, p = .south ∧ c.kind ≠ 1 ∧ s.dispatch p c = s.handNorth d)
      ∨ (∃ d, p = .north ∧ s.dispatch p c = s.handSouth d)
      ∨ (p = .north ∧ s.requests.length < 4 ∧ s.dispatch p c = { s with requests := s.requests ++ [c] })
      ∨ (p = .north ∧ s.dispatch p c = { s with reqDiscards := bump16 s.reqDiscards })
      ∨ (∃ k, p = .north ∧ s.loops[k].state.guarded = true ∧ s.dispatch p c = s.updateLoop k Loop.countGuard) := by
  cases p with
  | south =>
    unfold State.dispatch State.dispatchSouth
    dsimp only
    split
    · exact .inl rfl
    · exact .inl rfl
    · exact .inl rfl
    · rename_i h
      exact .inr (.inl ⟨rfl, h, rfl⟩)
    · rename_i h
      exact .inr (.inr (.inl ⟨_, rfl, by omega, rfl⟩))
    · rename_i h
      exact .inr (.inr (.inl ⟨_, rfl, by omega, rfl⟩))
    · exact .inr (.inr (.inl ⟨_, rfl, by assumption, rfl⟩))
  | north =>
    unfold State.dispatch State.dispatchNorth
    dsimp only
    split
    · exact .inl rfl
    · exact .inl rfl
    · exact .inl rfl
    · exact .inl rfl
    · unfold State.guard
      split
      · rename_i k hk
        have hg := (State.findLoop_eq_some.1 hk).1
        simp only [Bool.and_eq_true] at hg
        exact .inr (.inr (.inr (.inr (.inr (.inr ⟨k, rfl, hg.1, rfl⟩)))))
      · exact .inr (.inr (.inr (.inl ⟨_, rfl, rfl⟩)))
    · unfold State.dispatchRequest
      split
      · split
        · rename_i h
          exact .inr (.inr (.inr (.inr (.inl ⟨rfl, h, rfl⟩))))
        · exact .inr (.inr (.inr (.inr (.inr (.inl ⟨rfl, rfl⟩)))))
      · exact .inr (.inr (.inr (.inl ⟨_, rfl, rfl⟩)))
    · exact .inr (.inr (.inr (.inl ⟨_, rfl, rfl⟩)))

/-- The Classifier forwards, takes a hit or takes a miss (R9, R10, R12). -/
theorem State.classify_cases (s : State) (c : Cell) :
    (s.settings.mode = .pass ∧ s.classify c = s.handNorth c)
      ∨ (∃ n, s.settings.mode = .active ∧ s.channels[n].valid = true ∧ s.channels[n].cfg.key = c.key
        ∧ s.classify c = s.takeHit n c)
      ∨ (s.settings.mode = .active ∧ (∀ n : Fin Config.channelCount, s.channels[n].valid = true → s.channels[n].cfg.key ≠ c.key)
        ∧ s.classify c = s.takeMiss c) := by
  unfold State.classify
  cases hm : s.settings.mode with
  | pass => exact .inl ⟨rfl, rfl⟩
  | active =>
    cases hk : s.lookup c.key with
    | some n =>
      have h := (State.findChannel_eq_some.1 hk).1
      simp only [Bool.and_eq_true, beq_iff_eq] at h
      exact .inr (.inl ⟨n, rfl, h.1, h.2, by simp only⟩)
    | none =>
      refine .inr (.inr ⟨rfl, fun n hv he => ?_, by simp only⟩)
      have h := State.findChannel_eq_none.1 hk n
      simp only [hv, he, beq_self_eq_true, Bool.and_self, Bool.true_eq_false] at h

/-! ### Evaluation -/

/-- What the evaluation of a sample does to the part: after the RESUMED alarm where the entry was STALE, the dynamic part of
the entry alone changes, with a trip's or a return's alarm (R33 to R40, R46). -/
theorem State.evalSample_cases (s : State) (n : Fin Config.channelCount) (v : Int) :
    ∃ b : State, ((s.channels[n].dyn.state ≠ .stale ∧ b = s) ∨ (s.channels[n].dyn.state = .stale ∧ b = s.resumed n v))
      ∧ ((∃ f, s.evalSample n v = b.updateDyn n f
          ∧ (∀ d : ChannelDynamic, (f d).last = d.last ∧ (f d).lastRaw = d.lastRaw ∧ (f d).sent = d.sent
            ∧ (f d).forward = d.forward ∧ (f d).tripSeq = d.tripSeq))
        ∨ (∃ side : Side, s.evalSample n v = b.trip n side.tripped side.kind v)
        ∨ (∃ b', (b' = b ∨ ∃ run, b' = b.updateDyn n (fun d => { d with run := run }))
          ∧ s.evalSample n v = b'.returnToNormal n v)) := by
  have confirm : ∀ (b : State) (side : Side) (run : Nat),
      (∃ f, b.confirmRun n side run v = b.updateDyn n f
          ∧ (∀ d : ChannelDynamic, (f d).last = d.last ∧ (f d).lastRaw = d.lastRaw ∧ (f d).sent = d.sent
            ∧ (f d).forward = d.forward ∧ (f d).tripSeq = d.tripSeq))
        ∨ (∃ side' : Side, b.confirmRun n side run v = b.trip n side'.tripped side'.kind v) := by
    intro b side run
    unfold State.confirmRun
    split
    · exact .inr ⟨side, rfl⟩
    · exact .inl ⟨_, rfl, fun d => ⟨rfl, rfl, rfl, rfl, rfl⟩⟩
  have within : ∀ b : State,
      (∃ f, b.withinLimits n = b.updateDyn n f
          ∧ (∀ d : ChannelDynamic, (f d).last = d.last ∧ (f d).lastRaw = d.lastRaw ∧ (f d).sent = d.sent
            ∧ (f d).forward = d.forward ∧ (f d).tripSeq = d.tripSeq)) :=
    fun b => ⟨_, rfl, fun d => ⟨rfl, rfl, rfl, rfl, rfl⟩⟩
  have normal : ∀ b : State,
      (∃ f, b.evalNormal n v = b.updateDyn n f
          ∧ (∀ d : ChannelDynamic, (f d).last = d.last ∧ (f d).lastRaw = d.lastRaw ∧ (f d).sent = d.sent
            ∧ (f d).forward = d.forward ∧ (f d).tripSeq = d.tripSeq))
        ∨ (∃ side' : Side, b.evalNormal n v = b.trip n side'.tripped side'.kind v) := by
    intro b
    unfold State.evalNormal
    split
    · exact confirm _ _ _
    · exact .inl (within b)
  have pend : ∀ side : Side,
      (∃ f, s.evalPend n side v = s.updateDyn n f
          ∧ (∀ d : ChannelDynamic, (f d).last = d.last ∧ (f d).lastRaw = d.lastRaw ∧ (f d).sent = d.sent
            ∧ (f d).forward = d.forward ∧ (f d).tripSeq = d.tripSeq))
        ∨ (∃ side' : Side, s.evalPend n side v = s.trip n side'.tripped side'.kind v) := by
    intro side
    unfold State.evalPend
    split
    · split
      · exact confirm _ _ _
      · exact confirm _ _ _
    · exact .inl (within s)
  have tripped : ∀ side : Side,
      (∃ f, s.evalTripped n side v = s.updateDyn n f
          ∧ (∀ d : ChannelDynamic, (f d).last = d.last ∧ (f d).lastRaw = d.lastRaw ∧ (f d).sent = d.sent
            ∧ (f d).forward = d.forward ∧ (f d).tripSeq = d.tripSeq))
        ∨ (∃ run, s.evalTripped n side v = (s.updateDyn n (fun d => { d with run := run })).returnToNormal n v) := by
    intro side
    unfold State.evalTripped
    split
    · dsimp only
      split
      · unfold State.confirmClear
        split
        · exact .inr ⟨_, rfl⟩
        · exact .inr ⟨_, rfl⟩
        · exact .inl ⟨_, State.updateDyn_updateDyn .., fun d => ⟨rfl, rfl, rfl, rfl, rfl⟩⟩
      · exact .inl ⟨_, rfl, fun d => ⟨rfl, rfl, rfl, rfl, rfl⟩⟩
    · exact .inl ⟨_, rfl, fun d => ⟨rfl, rfl, rfl, rfl, rfl⟩⟩
  unfold State.evalSample
  cases h : s.channels[n].dyn.state <;> dsimp only
  case stale =>
    refine ⟨_, .inr ⟨rfl, rfl⟩, ?_⟩
    rcases normal (s.resumed n v) with h | h
    · exact .inl h
    · exact .inr (.inl h)
  all_goals refine ⟨s, .inl ⟨by simp, rfl⟩, ?_⟩
  case unseen =>
    rcases normal s with h | h
    · exact .inl h
    · exact .inr (.inl h)
  case normal =>
    rcases normal s with h | h
    · exact .inl h
    · exact .inr (.inl h)
  case highPend =>
    rcases pend .high with h | h
    · exact .inl h
    · exact .inr (.inl h)
  case lowPend =>
    rcases pend .low with h | h
    · exact .inl h
    · exact .inr (.inl h)
  case high =>
    rcases tripped .high with h | ⟨run, h⟩
    · exact .inl h
    · exact .inr (.inr ⟨_, .inr ⟨run, rfl⟩, h⟩)
  case low =>
    rcases tripped .low with h | ⟨run, h⟩
    · exact .inl h
    · exact .inr (.inr ⟨_, .inr ⟨run, rfl⟩, h⟩)

end Sys2Proof.Machine
end

