-- ==== Sys2Proof/Tests/Slice0.lean ====
section
/-! SUPPORT. Tests of the model on small states: the smoke test of the well-formedness checks, worked values of the spec, and
for every statement with premises a witness that concrete states and operands meet them, at the ends of their ranges. -/
namespace Sys2Proof.Tests
open Sys2Proof Sys2Proof.Machine

-- The tests are elaborated one after another: each evaluates a part of 128 entries, and all at once they ask for too many threads.
set_option Elab.async false

/-! ### Helpers -/

/-- The part with both receivers in SYNC and the conditioner mode given. -/
def linked (mode : Mode) : State :=
  { State.reset with
    north := { State.reset.north with link := .sync }, south := { State.reset.south with link := .sync }
    settings := { State.reset.settings with mode := mode } }

/-- A loaded entry configuration: key (5, 2), limits −100 and 100. -/
def someCfg : ChannelConfig :=
  { ChannelConfig.default with node := 5, point := 2, high := 100, low := -100, hyst := 10, trips := 2, clears := 2
                               silence := 30, alert := true }

/-- The part `s` with entry 9 loaded with `cfg` and dynamic part `d`. -/
def withEntry (s : State) (cfg : ChannelConfig) (d : ChannelDynamic) : State :=
  { s with channels := s.channels.set (9 : Fin 128) { valid := true, cfg := cfg, revision := 1, dyn := d, deadline := none } }

/-- A dynamic part in a state, with a run and LAST 0. -/
def dynIn (state : ChannelState) (run : Nat) : ChannelDynamic :=
  { ChannelDynamic.cleared with state := state, run := run, last := some 0, lastRaw := some 0 }

/-- A loop configuration: source entry 9, actuator (22, 1). -/
def someLoopCfg : LoopConfig :=
  { LoopConfig.default with enable := true, source := 9, actNode := 22, actPoint := 1, target := 350, tolerance := 10
                            step := 32, maxDuty := 224, satLimit := 3 }

/-- The part `s` with loop 3 in a state with a drive, and its step timer at its count. -/
def withLoop (s : State) (state : LoopState) (drive : Nat) : State :=
  { s with loops := s.loops.set (3 : Fin 16)
             { Loop.coldReset with cfg := someLoopCfg, state := state, drive := drive, stepTimer := some 0 } }

/-- A cell of the kinds 0 to 15 with HOP 0. -/
def cellOf (kind : Nat) : Cell := makeCell kind 5 2 1 40 0 0

/-- A request cell. -/
def request (op space entry : Nat) (value : Int) (aux : Nat) : Cell := makeCell 3 entry space op value 77 aux

/-- The part `s` with one request waiting. -/
def asked (s : State) (c : Cell) : State := { s with requests := [c] }

/-- The part with an OPEN session. -/
def opened : State := { linked .active with session := .opened, sessionTimer := some 300 }

/-- An alarm record. -/
def record (seq : Nat) (kind : AlarmKind) (subject : Subject) (phase : Phase) (resend : ResendTimer) : AlarmRecord :=
  { seq := seq, kind := kind, subject := subject, value := 7, alert := true, phase := phase, attempts := 0, resend := resend }

/-- The state a command leaves. -/
def after (i : Instr) (s : State) : State :=
  match exec i s with
  | .next t => t
  | .fault _ => s
  | .refused _ => s

/-! ### Well-formedness -/

theorem test_resend_expiry_of_256_is_ill_formed : (Instr.resendTimerExpiry 256).wellFormed = false := by decide

theorem test_pulse_of_no_length_is_ill_formed : (Instr.warmReset (.falls 0)).wellFormed = false := by decide

/-! ### Worked values of the spec -/

/-- R104: bytes 0 to 6 all 0 give the code hexadecimal 44. -/
theorem test_fill_check_is_44 : fillCell.b7 = 0x44#8 ∧ fillCell.good = true := by decide +kernel

/-- R104 counts every arrival that is not good: a FILL with its CHECK inverted is bad. -/
theorem test_inverted_check_is_bad : ({ fillCell with b7 := 0xBB#8 } : Cell).good = false := by decide +kernel

/-- R183: −500 travels as FE 0C. -/
theorem test_minus_500_bytes : (makeCell 1 5 0 0 (-500) 0 0).b3 = 0xFE#8 ∧ (makeCell 1 5 0 0 (-500) 0 0).b4 = 0x0C#8 := by
  decide +kernel

/-- An arrival whose CHECK is wrong. -/
def badCell : Cell := { fillCell with b7 := 0xBB#8 }

/-- OFFSET and GAIN on top of the defaults, applied to a raw value. -/
def conditioned (raw offset gain : Int) : Int :=
  ({ ChannelConfig.default with offset := offset, gain := gain } : ChannelConfig).condition raw

/-- Section 2.1, the examples of conditioning. -/
theorem test_conditioning_examples :
    [conditioned 1000 (-40) 320, conditioned 3 0 100, conditioned (-3) 0 100, conditioned (-1) 0 128,
      conditioned 500 0 (-256), conditioned 30000 10000 512, conditioned (-32768) (-32768) 256,
      conditioned (-32768) 0 (-32768), conditioned 77 5 0] = [1200, 1, -2, -1, -500, 32767, -32768, 32767, 0] := by decide

/-- The bytes 0 to 6 of a cell, and whether its CHECK is right. -/
def bytes (c : Cell) : List Nat × Bool :=
  ([c.b0.toNat, c.b1.toNat, c.b2.toNat, c.b3.toNat, c.b4.toNat, c.b5.toNat, c.b6.toNat], c.good)

/-- Section 11.5: the READ of ALARM_COUNT, written out. -/
def readAlarmCount : Cell := makeCell 3 0 3 1 0 9 19

theorem test_read_request_bytes : bytes readAlarmCount = ([0x30, 0x00, 0x61, 0x00, 0x00, 0x09, 0x13], true) := by
  decide +kernel

/-- Section 11.5: its response, with three records held. -/
theorem test_read_response_bytes :
    (after .read (asked { linked .active with
        alarms := [record 0 .stale (.channel 1) .new .stopped, record 1 .stale (.channel 2) .new .stopped,
                   record 2 .stale (.channel 3) .new .stopped] } readAlarmCount)).responses.map bytes =
      [([0x40, 0x00, 0x60, 0x00, 0x03, 0x09, 0x13], true)] := by decide +kernel

/-- Section 11.5: a field number above the part's table. -/
theorem test_read_of_part_field_21 :
    (after .read (asked (linked .active) (makeCell 3 0 3 1 0 9 21))).responses.map (fun r => (r.op, r.value)) = [(5, 0)] := by
  decide +kernel

/-- Section 11.5: the command of loop 3 for actuator (22, 1) with DRIVE 224. -/
theorem test_loop_command_bytes :
    bytes (({ Loop.coldReset with cfg := someLoopCfg, drive := 224 } : Loop).commandCell 3) =
      ([0x20, 0x16, 0x21, 0x00, 0xE0, 0xF3, 0x00], true) := by decide +kernel

/-- Section 11.5: a conditioner further north relays the response with byte 0 changed to 41. -/
theorem test_relayed_response_bytes :
    bytes (relayNorth (makeCell 4 0 3 0 3 9 19)) = ([0x41, 0x00, 0x60, 0x00, 0x03, 0x09, 0x13], true) := by decide +kernel

/-- Section 12.2, order A: the sample of 520 trips entry 20 with TRIPS 1 and takes SEQ 7. -/
theorem test_latched_trip_takes_seq_7 :
    (let t := (withEntry { linked .active with nextSeq := 7 }
        { someCfg with high := 500, low := 0, hyst := 30, trips := 1, mode := .latch } (dynIn .normal 0)).evalSample 9 520;
      (t.channels[(9 : Fin 128)].dyn.state, t.channels[(9 : Fin 128)].dyn.tripSeq, t.nextSeq, t.alertPin)) =
      (.high, some 7, 8, true) := by decide +kernel

/-- Thirty-one records of different ports' subjects, none of them LOST. -/
def fullQueue : List AlarmRecord := (List.range 31).map (fun i => record (100 + i) .cleared (.port .south) .sent .stopped)

/-- Section 12.3: the 31st record fills the queue for ordinary admission, so the next alarm makes the LOST record. -/
theorem test_full_queue_makes_lost_record :
    (let t := ({ linked .active with alarms := fullQueue, nextSeq := 131 } : State).raise
        { kind := .stale, subject := .channel 30, value := 0, alert := false };
      (t.alarms.length, t.alarms.getLast?.map (fun r => (r.seq, r.kind, r.value, r.phase)), t.nextSeq)) =
      (32, some (131, .lost, 1, .new), 132) := by decide +kernel

/-- Section 12.1: a loop in RUNNING at 80 with STEP 40 and STOP_DUTY 60 steps down to 60, not 40. -/
theorem test_step_down_stops_at_stop_duty :
    (let l := (({ Loop.coldReset with
        cfg := { someLoopCfg with target := 300, step := 40, stopDuty := 60 }, state := .running, drive := 80 } : Loop).stepWith
          .active .down).1;
      (l.drive, l.state, l.pending, l.stepTimer)) = (60, .running, true, some 10) := by decide +kernel

/-- Section 12.1: the first OPEN after cold reset is answered OK with 1. -/
theorem test_open_proposes_one :
    (let t := after .openPhase1 (asked (linked .pass) (request 2 0 0 0 1));
      (t.session, t.proposal, t.responses.map (fun r => (r.op, r.value)))) = (.proposed, some 1, [(0, 1)]) := by decide +kernel

/-- Section 1.9: a miss of a key that is listed moves its record to the front and counts it. -/
theorem test_miss_moves_to_front :
    missUpdate ⟨7, 2⟩ [⟨⟨9, 1⟩, 1⟩, ⟨⟨7, 2⟩, 2⟩, ⟨⟨0, 4⟩, 1⟩] = [⟨⟨7, 2⟩, 3⟩, ⟨⟨9, 1⟩, 1⟩, ⟨⟨0, 4⟩, 1⟩] := by decide +kernel

/-! ### Witnesses: states and operands that meet the premises of the statements

Each theorem is named after its statement and lists its premises, clause by clause, on concrete data at the ends of their
ranges. Where a state is the same in several clauses it is checked once. -/

theorem witness_StepRunsFrontCommand : ({ State.reset with pending := [.northSlot, .read] } : State).pending = .northSlot :: [.read] :=
  rfl

theorem witness_EveryCommandCompletes : (∀ e, Instr.northSlot ≠ .coldReset e) ∧ ∀ e, Instr.northSlot ≠ .warmReset e := by
  constructor <;> intro e h <;> cases h

/-- The part with the divider at a value and no command waiting. -/
def atDivider (d : Nat) : State := { linked .active with divider := d }

theorem witness_IdleStepIsTheTimeBase :
    (atDivider 0).pending = [] ∧ ({ atDivider 0 with resetLow := true } : State).coldHeld = true
      ∧ ({ atDivider 0 with resetLow := true } : State).pending = []
      ∧ (atDivider 0).coldHeld = false ∧ (atDivider 0).divider + 1 < 250000
      ∧ (atDivider 249998).pending = [] ∧ (atDivider 249998).coldHeld = false ∧ (atDivider 249998).divider + 1 < 250000
      ∧ (atDivider 249999).pending = [] ∧ (atDivider 249999).coldHeld = false
      ∧ 250000 ≤ (atDivider 249999).divider + 1 := by decide +kernel

theorem witness_ColdResetHoldsAndRestoresThePart :
    ({ State.reset with resetLow := true } : State).resetLow = true ∧ State.reset.resetLow = false
      ∧ ({ State.reset with poweringUp := true } : State).poweringUp = true ∧ State.reset.poweringUp = false
      ∧ ({ State.reset with resetLow := true } : State).coldHeld = true
      ∧ ({ State.reset with poweringUp := true } : State).coldHeld = true := by decide +kernel

theorem witness_RestartPinMakesWarmReset :
    State.reset.restartLow = false ∧ State.reset.coldHeld = false ∧ 1000 ≤ 1000 ∧ 999 < 1000
      ∧ ({ State.reset with restartLow := true } : State).restartLow = true
      ∧ ({ State.reset with resetLow := true } : State).restartLow = false
      ∧ ({ State.reset with resetLow := true } : State).coldHeld = true := by decide +kernel

theorem witness_RelayChangesOnlyHopAndCheck :
    ((cellOf 4).withHop 15).hop = 15 ∧ ((cellOf 4).withHop 14).hop ≠ 15 ∧ (cellOf 4).hop ≠ 15
      ∧ ((cellOf 3).withHop 1).hop ≠ 0 ∧ ((cellOf 3).withHop 15).hop ≠ 0 := by decide +kernel

theorem witness_PartMadeCellsCarryTheirFields :
    (Reply.plain .ok).value = none ∧ (Reply.plain .ok).aux = none
      ∧ (Reply.result (-32768)).value = some (-32768) ∧ (-32768 : Int) ≤ -32768
      ∧ (Reply.result 65535).value = some 65535 ∧ (65535 : Int) ≤ 65535
      ∧ (Reply.failedCheck 255).aux = some 255 ∧ 255 ≤ 255
      ∧ (let r := { record 255 .high (.channel 127) .sent .due with value := -32768, attempts := 15 };
         r.seq ≤ 255 ∧ r.attempts ≤ 15 ∧ -32768 ≤ r.value ∧r.value ≤ 32767)
      ∧ (let l := { Loop.coldReset with cfg := { someLoopCfg with actNode := 63, actPoint := 7 }, drive := 255 };
         l.cfg.actNode ≤ 63 ∧ l.cfg.actPoint ≤ 7 ∧ l.drive ≤ 255) := by
  simp [Reply.plain, Reply.result, Reply.failedCheck, record]

/-- Entry 9 under ON_CHANGE with DEADBAND 20 and REFRESH 5, in NORMAL, with SENT and its forward timer given. -/
def onChange (refresh : Nat) (sent : Option Int) (timer : ForwardTimer) : State :=
  withEntry (linked .active) { someCfg with policy := .onChange, deadband := 20, refresh := refresh }
    { dynIn .normal 0 with sent := sent, forward := timer }

/-- The condition of R23 at entry 9, for a prior state and a value. -/
def dueAt (s : State) (prior : ChannelState) (v : Int) : Prop :=
  s.channels[(9 : Fin 128)].dyn.sent = none
    ∨ (∃ w, s.channels[(9 : Fin 128)].dyn.sent = some w ∧ (s.channels[(9 : Fin 128)].cfg.deadband : Int) ≤ |v - w|)
    ∨ s.channels[(9 : Fin 128)].dyn.state ≠ prior ∨ s.channels[(9 : Fin 128)].dyn.forward = .expired

theorem onChange_entry (refresh : Nat) (sent : Option Int) (timer : ForwardTimer) :
    (onChange refresh sent timer).channels[(9 : Fin 128)] =
      { valid := true, cfg := { someCfg with policy := .onChange, deadband := 20, refresh := refresh }, revision := 1
        dyn := { dynIn .normal 0 with sent := sent, forward := timer }, deadline := none } := by
  simp [onChange, withEntry]

/-- R23: each of the four conditions alone, and, at the distance just below DEADBAND, none. -/
theorem witness_PolicyForwardsRewritesOrDiscards :
    dueAt (onChange 5 none .idle) .normal 0 ∧ dueAt (onChange 5 (some 0) .idle) .normal 20
      ∧ dueAt (onChange 0 (some 0) .idle) .stale 0 ∧ dueAt (onChange 0 (some 0) .expired) .normal 0
      ∧ ¬dueAt (onChange 5 (some 0) (.running 1)) .normal 19 ∧ ¬dueAt (onChange 5 (some 0) (.running 1)) .normal (-19)
      ∧ (∀ p : Policy, (withEntry (linked .active) { someCfg with policy := p } .cleared).channels[(9 : Fin 128)].cfg.policy = p)
      ∧ (-32768 : Int) ≤ -32768 ∧ (32767 : Int) ≤ 32767 := by
  refine ⟨?_, ?_, ?_, ?_, ?_, ?_, ?_, by decide, by decide⟩
  · simp only [dueAt, onChange_entry]; simp
  · simp only [dueAt, onChange_entry, dynIn]; simp
  · simp only [dueAt, onChange_entry, dynIn]; simp
  · simp only [dueAt, onChange_entry]; simp
  · simp only [dueAt, onChange_entry, dynIn]; simp
  · simp only [dueAt, onChange_entry, dynIn]; simp
  · intro p; simp [withEntry]

/-- The part with the south receiver as given. -/
def southIs (r : Receiver) : State := { linked .active with south := r }

theorem witness_ReceiversCountRuns :
    (southIs { link := .hunt, goodRun := 6, badRun := 0, crc := 0 }).coldHeld = false
      ∧ Arrival.Bad .void ∧ badCell.good = false ∧ fillCell.good = true
      ∧ ((southIs { link := .hunt, goodRun := 6, badRun := 0, crc := 0 }).receiver .south).link = .hunt
      ∧ ((southIs { link := .hunt, goodRun := 6, badRun := 0, crc := 0 }).receiver .south).goodRun + 1 < 8
      ∧ 8 ≤ ((southIs { link := .hunt, goodRun := 7, badRun := 0, crc := 0 }).receiver .south).goodRun + 1
      ∧ ((southIs { link := .sync, goodRun := 0, badRun := 2, crc := 65535 }).receiver .south).link = .sync
      ∧ ((southIs { link := .sync, goodRun := 0, badRun := 2, crc := 65535 }).receiver .south).badRun + 1 < 4
      ∧ 4 ≤ ((southIs { link := .sync, goodRun := 0, badRun := 3, crc := 65535 }).receiver .south).badRun + 1 := by
  refine ⟨by decide +kernel, trivial, by decide +kernel, by decide +kernel, ?_⟩
  decide +kernel

/-- Every kind reaches the port from either side; requests at both ends of the request queue's room. -/
theorem witness_ReceiversDispatchByKind :
    (∀ kind < 16, (linked .active).Reaches .south kind (cellOf kind) ∧ (linked .active).Reaches .north kind (cellOf kind))
      ∧ (cellOf 3).hop = 0 ∧ (linked .active).Reaches .north 3 ((cellOf 3).withHop 1).sealed
      ∧ ((cellOf 3).withHop 1).sealed.hop ≠ 0
      ∧ ({ linked .active with requests := List.replicate 3 (cellOf 3) } : State).requests.length < 4
      ∧ 4 ≤ ({ linked .active with requests := List.replicate 4 (cellOf 3) } : State).requests.length := by decide +kernel

/-- The FIFOs on either side of their capacities. -/
theorem witness_ReceiversDispatchByKind_fifos :
    State.reset.north.link = .hunt ∧ State.reset.south.link = .hunt
      ∧ (linked .active).north.link = .sync ∧ (linked .active).south.link = .sync
      ∧ ({ linked .active with northFifo := List.replicate 31 fillCell } : State).northFifo.length < 32
      ∧ 32 ≤ ({ linked .active with northFifo := List.replicate 32 fillCell } : State).northFifo.length
      ∧ ({ linked .active with southFifo := List.replicate 15 fillCell } : State).southFifo.length < 16
      ∧ 16 ≤ ({ linked .active with southFifo := List.replicate 16 fillCell } : State).southFifo.length := by decide +kernel

/-! The loop tables of the witnesses hold one loop outside DISABLED, and the channel tables one valid entry. -/

theorem withLoop_loops (s : State) (st : LoopState) (drive : Nat) (k : Fin 16) :
    (withLoop s st drive).loops[k] =
      if k = 3 then { Loop.coldReset with cfg := someLoopCfg, state := st, drive := drive, stepTimer := some 0 }
      else s.loops[k] := getElem_set_table ..

theorem withEntry_channels (s : State) (cfg : ChannelConfig) (d : ChannelDynamic) (n : Fin 128) :
    (withEntry s cfg d).channels[n] =
      if n = 9 then { valid := true, cfg := cfg, revision := 1, dyn := d, deadline := none } else s.channels[n] :=
  getElem_set_table ..

theorem linked_channels (mode : Mode) (n : Fin 128) : (linked mode).channels[n] = Channel.coldReset := by
  simp [linked, State.reset]

theorem linked_loops (mode : Mode) (k : Fin 16) : (linked mode).loops[k] = Loop.coldReset := by simp [linked, State.reset]

/-- The part in ACTIVE mode with entry 9 loaded and loop 3 enabled on it, in a state with a drive. -/
def looped (st : LoopState) (drive : Nat) : State := withLoop (withEntry (linked .active) someCfg (dynIn .normal 0)) st drive

theorem looped_loops (st : LoopState) (drive : Nat) (k : Fin 16) :
    (looped st drive).loops[k] =
      if k = 3 then { Loop.coldReset with cfg := someLoopCfg, state := st, drive := drive, stepTimer := some 0 }
      else Loop.coldReset := by
  rw [looped, withLoop_loops]
  by_cases h : k = 3
  · simp [h]
  · rw [if_neg h, if_neg h]; exact linked_loops .active k

theorem looped_channels (st : LoopState) (drive : Nat) (n : Fin 128) :
    (looped st drive).channels[n] =
      if n = 9 then { valid := true, cfg := someCfg, revision := 1, dyn := dynIn .normal 0, deadline := none }
      else Channel.coldReset := by
  rw [looped, show (withLoop (withEntry (linked .active) someCfg (dynIn .normal 0)) st drive).channels =
    (withEntry (linked .active) someCfg (dynIn .normal 0)).channels from rfl, withEntry_channels]
  by_cases h : n = 9
  · simp [h]
  · rw [if_neg h, if_neg h]; exact linked_channels .active n

theorem looped_actuatorsDistinct (st : LoopState) (drive : Nat) : (looped st drive).ActuatorsDistinct := by
  constructor
  · intro j k hj hk _
    rw [looped_loops] at hj hk
    by_cases h1 : j = 3
    · by_cases h2 : k = 3
      · rw [h1, h2]
      · rw [if_neg h2] at hk; exact absurd rfl hk
    · rw [if_neg h1] at hj; exact absurd rfl hj
  · intro k hk
    by_cases h : k = 3
    · have e : (looped st drive).loops[k].cfg.source = 9 := by rw [looped_loops, if_pos h]; rfl
      simp only [e, looped_channels, if_pos]
    · rw [looped_loops, if_neg h] at hk; exact absurd rfl hk

/-- A COMMAND cell for an actuator key. -/
def commandFor (node point : Nat) : Cell := makeCell 2 node point 1 200 240 0

theorem witness_ActuatorGuardKeepsCommands :
    (looped .running 100).ActuatorsDistinct
      ∧ (looped .running 100).Reaches .north 2 (commandFor 22 1) ∧ (looped .running 100).Reaches .north 2 (commandFor 22 2)
      ∧ (looped .running 100).loops[(3 : Fin 16)].state ≠ .disabled
      ∧ (looped .running 100).loops[(3 : Fin 16)].state ≠ .manual
      ∧ (⟨(commandFor 22 1).b1.toNat % 64, (commandFor 22 1).b2.toNat / 32⟩ : Key) =
          ⟨(looped .running 100).loops[(3 : Fin 16)].cfg.actNode, (looped .running 100).loops[(3 : Fin 16)].cfg.actPoint⟩
      ∧ ∀ k : Fin 16, (looped .running 100).loops[k].state ≠ .disabled → (looped .running 100).loops[k].state ≠ .manual →
          (⟨(commandFor 22 2).b1.toNat % 64, (commandFor 22 2).b2.toNat / 32⟩ : Key) ≠
            ⟨(looped .running 100).loops[k].cfg.actNode, (looped .running 100).loops[k].cfg.actPoint⟩ :=
  ⟨looped_actuatorsDistinct _ _, by decide +kernel⟩

/-- The part in ACTIVE mode with no valid entry and a Miss List. -/
def missing (list : List MissRecord) : State := { linked .active with missList := list }

theorem missing_noValid (list : List MissRecord) (n : Fin 128) : (missing list).channels[n].valid = false := by
  rw [show (missing list).channels = (linked .active).channels from rfl, linked_channels]; rfl

theorem missing_missSound (list : List MissRecord) (h : list.length ≤ 8) (keys : (list.map (·.key)).Nodup)
    (hits : ∀ r ∈ list, 1 ≤ r.hits ∧ r.hits ≤ 255) : (missing list).MissSound :=
  ⟨h, keys, hits, fun _ _ n hn => absurd hn (by rw [missing_noValid]; decide)⟩

/-- Records of the keys (1, 0), (2, 0), … with HITS 1. -/
def misses (count : Nat) : List MissRecord := (List.range count).map (fun i => { key := ⟨i + 1, 0⟩, hits := 1 })

/-- A SAMPLE cell of a key with a raw value. -/
def sampleOf (node point : Nat) (raw : Int) : Cell := makeCell 1 node point 0 raw 3 0

/-- The three forms of the Miss List, HITS 255 and the seventh, eighth and ninth record among them, and both policies. -/
theorem witness_SamplesPassOrMiss :
    (linked .pass).Reaches .south 1 (sampleOf 5 2 0) ∧ (linked .pass).settings.mode = .pass
      ∧ (linked .active).settings.mode = .active
      ∧ (missing [⟨⟨7, 0⟩, 1⟩, ⟨⟨5, 2⟩, 255⟩]).Reaches .south 1 (sampleOf 5 2 0)
      ∧ (missing [⟨⟨7, 0⟩, 1⟩, ⟨⟨5, 2⟩, 255⟩]).MissSound
      ∧ (missing [⟨⟨7, 0⟩, 1⟩, ⟨⟨5, 2⟩, 255⟩]).missList = [⟨⟨7, 0⟩, 1⟩] ++ { key := (sampleOf 5 2 0).key, hits := 255 } :: []
      ∧ (missing (misses 7)).MissSound ∧ (∀ r ∈ (missing (misses 7)).missList, r.key ≠ (sampleOf 5 2 0).key)
      ∧ (missing (misses 7)).missList.length < 8
      ∧ (missing (misses 8)).MissSound ∧ (∀ r ∈ (missing (misses 8)).missList, r.key ≠ (sampleOf 5 2 0).key)
      ∧ (missing (misses 8)).missList = (misses 7) ++ [⟨⟨8, 0⟩, 1⟩] ∧ (misses 7).length = 7
      ∧ ∀ n : Fin 128, (missing (misses 8)).channels[n].valid = true →
          (missing (misses 8)).channels[n].cfg.key ≠ (sampleOf 5 2 0).key := by
  refine ⟨by decide +kernel, by decide +kernel, by decide +kernel, by decide +kernel, missing_missSound _ ?_ ?_ ?_,
    by decide +kernel, missing_missSound _ ?_ ?_ ?_, by decide +kernel, by decide +kernel, missing_missSound _ ?_ ?_ ?_,
    by decide +kernel, by decide +kernel, by decide +kernel, fun n hn => absurd hn (by rw [missing_noValid]; decide)⟩ <;>
  decide +kernel

theorem looped_keysDistinct (st : LoopState) (drive : Nat) : (looped st drive).KeysDistinct := by
  intro m n hm hn _
  rw [looped_channels] at hm hn
  by_cases h1 : m = 9
  · by_cases h2 : n = 9
    · rw [h1, h2]
    · rw [if_neg h2] at hn; exact absurd hn (by decide)
  · rw [if_neg h1] at hm; exact absurd hm (by decide)

/-- The part with entry 9 loaded and its deadline running. -/
def loaded : State :=
  { linked .active with
    channels := (linked .active).channels.set (9 : Fin 128)
      { valid := true, cfg := someCfg, revision := 1, dyn := dynIn .normal 0, deadline := some 30 } }

theorem loaded_channelsSound : loaded.ChannelsSound := by
  intro n
  have e : loaded.channels[n] = if n = 9 then
      { valid := true, cfg := someCfg, revision := 1, dyn := dynIn .normal 0, deadline := some 30 }
      else (linked .active).channels[n] := getElem_set_table ..
  rw [e]
  by_cases h : n = 9
  · rw [if_pos h]; simp [Channel.Sound, Channel.ForwardLaw, ChannelConfig.Installed, ChannelDynamic.Sound, dynIn,
      ChannelDynamic.cleared, someCfg, ChannelConfig.default, loaded, linked]
  · rw [if_neg h, linked_channels]
    simp [Channel.Sound, Channel.ForwardLaw, ChannelDynamic.Sound, Channel.coldReset, ChannelDynamic.cleared]

theorem witness_LookupFindsTheValidEntry :
    (looped .running 100).KeysDistinct ∧ (looped .running 100).lookup ⟨5, 2⟩ = some 9 ∧ (looped .running 100).lookup ⟨5, 3⟩ = none
      ∧ loaded.ChannelsSound ∧ loaded.lookup ⟨5, 2⟩ = some 9 :=
  ⟨looped_keysDistinct _ _, by decide +kernel, by decide +kernel, loaded_channelsSound, by decide +kernel⟩

theorem witness_ConditionedValueIsFlooredAndSaturated :
    ChannelConfig.default.gain = 256 ∧ ChannelConfig.default.offset = 0 ∧ (-32768 : Int) ≤ 32767
      ∧ ({ ChannelConfig.default with gain := 0 } : ChannelConfig).gain = 0 := by decide

theorem witness_HitTakesSample :
    loaded.Reaches .south 1 (sampleOf 5 2 101) ∧ loaded.settings.mode = .active
      ∧ (loaded.goodTaken .south).lookup (sampleOf 5 2 101).key = some 9
      ∧ (8 : Fin 128) ≠ 9 ∧ loaded.loops[(0 : Fin 16)].cfg.source ≠ 9 := by decide +kernel

/-- Entry 9 in a state with a run and TRIPS and CLEARS given; limits −100 and 100, HYST 10. -/
def entryIn (state : ChannelState) (run trips clears : Nat) (mode : TripMode) (acked : Bool) : State :=
  withEntry (linked .active) { someCfg with trips := trips, clears := clears, mode := mode } { dynIn state run with acked := acked }

/-- The values on either side of both limits, and runs that do and do not reach TRIPS. -/
theorem witness_EvaluationFollowsLimits :
    (entryIn .normal 0 1 1 .compare false).channels[(9 : Fin 128)].cfg.low <
        (entryIn .normal 0 1 1 .compare false).channels[(9 : Fin 128)].cfg.high
      ∧ (∀ st ∈ [ChannelState.unseen, .normal, .stale, .highPend, .lowPend],
          (entryIn st 1 3 1 .compare false).channels[(9 : Fin 128)].dyn.state = st)
      ∧ (101 : Int) > someCfg.high ∧ (100 : Int) ≤ someCfg.high ∧ (-101 : Int) < someCfg.low ∧ someCfg.low ≤ (-100 : Int)
      ∧ (entryIn .normal 0 1 1 .compare false).channels[(9 : Fin 128)].cfg.trips ≤ 1
      ∧ 1 < (entryIn .normal 0 2 1 .compare false).channels[(9 : Fin 128)].cfg.trips
      ∧ (entryIn .highPend 1 2 1 .compare false).channels[(9 : Fin 128)].cfg.trips ≤
          (entryIn .highPend 1 2 1 .compare false).channels[(9 : Fin 128)].dyn.run + 1
      ∧ (entryIn .highPend 1 3 1 .compare false).channels[(9 : Fin 128)].dyn.run + 1 <
          (entryIn .highPend 1 3 1 .compare false).channels[(9 : Fin 128)].cfg.trips := by decide +kernel

/-- The clear thresholds 90 and −90, the run that reaches CLEARS and the one that does not, both modes, ACKED yes and no. -/
theorem witness_TrippedChannelsClearByRuns :
    (entryIn .high 0 1 2 .latch false).channels[(9 : Fin 128)].dyn.state = .high
      ∧ (entryIn .low 0 1 2 .latch false).channels[(9 : Fin 128)].dyn.state = .low
      ∧ (90 : Int) ≤ someCfg.high - someCfg.hyst ∧ ¬(91 : Int) ≤ someCfg.high - someCfg.hyst
      ∧ (-90 : Int) ≥ someCfg.low + someCfg.hyst ∧ ¬(-91 : Int) ≥ someCfg.low + someCfg.hyst
      ∧ min ((entryIn .high 0 1 2 .latch false).channels[(9 : Fin 128)].dyn.run + 1) 2 < 2
      ∧ min ((entryIn .high 1 1 2 .latch false).channels[(9 : Fin 128)].dyn.run + 1) 2 = 2
      ∧ (entryIn .high 1 1 2 .compare false).channels[(9 : Fin 128)].cfg.mode = .compare
      ∧ (entryIn .high 1 1 2 .latch true).channels[(9 : Fin 128)].dyn.acked = true
      ∧ (entryIn .high 1 1 2 .latch false).channels[(9 : Fin 128)].cfg.mode = .latch
      ∧ (entryIn .high 1 1 2 .latch false).channels[(9 : Fin 128)].dyn.acked = false := by decide +kernel

theorem witness_TripTakesSeqFromAdmission :
    (ChannelState.high = .high ∧ AlarmKind.high = .high) ∧ ChannelState.low = .low ∧ AlarmKind.low = .low := by decide

/-- Entry 9 in a state, with its deadline and its forward timer `ticks` boundaries from their counts. -/
def timed (state : ChannelState) (ticks : Nat) : State :=
  { linked .active with
    channels := (linked .active).channels.set (9 : Fin 128)
      { valid := true, cfg := someCfg, revision := 1, dyn := { dynIn state 0 with forward := .running ticks }
        deadline := some ticks } }

/-- Timers at their counts, and timers one boundary away or stopped. -/
theorem witness_ChannelTimersExpire :
    (timed .high 0).coldHeld = false ∧ (timed .high 0).channels[(9 : Fin 128)].deadline = some 0
      ∧ (timed .high 0).channels[(9 : Fin 128)].dyn.state ≠ .stale ∧ (timed .stale 0).channels[(9 : Fin 128)].deadline = some 0
      ∧ (timed .stale 0).channels[(9 : Fin 128)].dyn.state = .stale
      ∧ (timed .high 1).channels[(9 : Fin 128)].deadline ≠ some 0 ∧ (timed .high 0).channels[(8 : Fin 128)].deadline ≠ some 0
      ∧ (timed .high 0).channels[(9 : Fin 128)].dyn.forward = .running 0
      ∧ (timed .high 1).channels[(9 : Fin 128)].dyn.forward ≠ .running 0
      ∧ (timed .high 0).channels[(8 : Fin 128)].dyn.forward ≠ .running 0
      ∧ (looped .running 100).loops[(3 : Fin 16)].cfg.source = 9
      ∧ (looped .running 100).loops[(3 : Fin 16)].state.automatic = true := by decide +kernel

/-- R47: a sample that comes before the expiry of its deadline starts the deadline again, and the expiry does not happen. -/
theorem test_sample_before_the_deadline_expiry :
    (let e := (after (.deadlineExpiry 9) (after (.arrival .south (.cell (cellOf 1))) (timed .normal 0))).channels[(9 : Fin 128)];
      (e.dyn.state, e.dyn.last, e.deadline)) = (.normal, some 40, some 30) := by decide +kernel

/-- R180: a warm reset that comes before the expiry of a deadline starts the deadline again, and the expiry does not happen. -/
theorem test_warm_reset_before_the_deadline_expiry :
    (let e := (after (.deadlineExpiry 9) (after (.warmReset (.falls 1000)) (timed .normal 0))).channels[(9 : Fin 128)];
      (e.dyn.state, e.deadline)) = (.unseen, some 30) := by decide +kernel

/-- The part with an Alarm Queue. -/
def alarmed (q : List AlarmRecord) : State := { linked .active with alarms := q }

/-- An alarm of the south port. -/
def portAlarm : Alarm := { kind := .cleared, subject := .port .south, value := 3, alert := false }

/-- Coalescing at the youngest of two records of a subject; 30 and 31 records; a LOST record that is there and one that is
not. -/
theorem witness_AlarmsAreAdmittedInOrder :
    (alarmed [record 1 .link (.port .south) .new .stopped, record 2 .cleared (.port .south) .new .stopped,
        record 3 .high (.channel 4) .new .stopped]).alarms =
        [record 1 .link (.port .south) .new .stopped] ++ record 2 .cleared (.port .south) .new .stopped ::
          [record 3 .high (.channel 4) .new .stopped]
      ∧ (record 2 .cleared (.port .south) .new .stopped).subject = portAlarm.subject
      ∧ (∀ x ∈ [record 3 .high (.channel 4) .new .stopped], x.subject ≠ portAlarm.subject)
      ∧ (record 2 .cleared (.port .south) .new .stopped).kind = portAlarm.kind
      ∧ (record 2 .cleared (.port .south) .new .stopped).attempts = 0
      ∧ (alarmed (fullQueue.take 30)).alarms.length < 31 ∧ 31 ≤ (alarmed fullQueue).alarms.length
      ∧ (∀ r ∈ (alarmed fullQueue).alarms, r.kind ≠ .lost)
      ∧ (alarmed (fullQueue ++ [record 99 .lost .noSubject .new .stopped])).alarms =
          fullQueue ++ record 99 .lost .noSubject .new .stopped :: []
      ∧ (∀ x ∈ fullQueue ++ [], x.kind ≠ .lost)
      ∧ (alarmed fullQueue).alarms.length ≤ 31 ∧ ({ alarmed fullQueue with nextSeq := 255 } : State).nextSeq ≤ 255 := by
  decide +kernel

/-- No record of the full queue absorbs the alarm: each of its subject is SENT. -/
theorem witness_AlarmsAreAdmittedInOrder_unabsorbed (older : List AlarmRecord) (r : AlarmRecord) (younger : List AlarmRecord)
    (h : (alarmed fullQueue).alarms = older ++ r :: younger) : r.kind ≠ portAlarm.kind ∨ r.phase ≠ .new ∨ r.attempts ≠ 0 := by
  have hr : r ∈ fullQueue := by rw [show fullQueue = older ++ r :: younger from h]; simp
  have all : ∀ x ∈ fullQueue, x.phase ≠ .new := by decide +kernel
  exact .inr (.inl (all r hr))

/-- The part with a north forward FIFO of a length, responses and alarms. -/
def northQueues (cells : Nat) (responses : List Cell) (q : List AlarmRecord) : State :=
  { linked .active with northFifo := List.replicate cells fillCell, responses := responses, alarms := q }

/-- The high-water mark of 24 on both sides; a response; a NEW record, a DUE one, and none of either; an empty FIFO. -/
theorem witness_NorthSlotSendsInOrder :
    State.reset.coldHeld = false ∧ State.reset.north.link = .hunt
      ∧ (northQueues 24 [] []).coldHeld = false ∧ (northQueues 24 [] []).north.link = .sync
      ∧ (northQueues 24 [] []).northFifo = fillCell :: List.replicate 23 fillCell
      ∧ 24 ≤ (northQueues 24 [] []).northFifo.length
      ∧ (northQueues 23 [cellOf 4] []).northFifo.length < 24 ∧ (northQueues 23 [cellOf 4] []).responses = cellOf 4 :: []
      ∧ (northQueues 23 [] []).responses = []
      ∧ (northQueues 1 [] [record 1 .high (.channel 1) .sent .due, record 2 .high (.channel 2) .new .stopped]).alarms =
          [record 1 .high (.channel 1) .sent .due] ++ record 2 .high (.channel 2) .new .stopped :: []
      ∧ (∀ x ∈ [record 1 .high (.channel 1) .sent .due], x.phase ≠ .new)
      ∧ (northQueues 1 [] [record 1 .high (.channel 1) .sent (.running 3), record 2 .high (.channel 2) .sent .due]).alarms =
          [record 1 .high (.channel 1) .sent (.running 3)] ++ record 2 .high (.channel 2) .sent .due :: []
      ∧ (∀ x ∈ [record 1 .high (.channel 1) .sent (.running 3), record 2 .high (.channel 2) .sent .due], x.phase ≠ .new)
      ∧ (∀ x ∈ [record 1 .high (.channel 1) .sent (.running 3)], x.resend ≠ .due)
      ∧ (∀ r ∈ (northQueues 1 [] [record 1 .high (.channel 1) .sent (.running 3)]).alarms, r.phase = .sent ∧ r.resend ≠ .due)
      ∧ (northQueues 1 [] []).northFifo = fillCell :: [] ∧ (northQueues 0 [] []).northFifo = [] := by decide +kernel

/-- RETRY reached and not reached, RETRY 0, and records whose timers are DUE or one boundary from their count. -/
theorem witness_ResendExpiryAbandonsOrMakesDue :
    (alarmed [{ record 4 .high (.channel 1) .sent (.running 0) with attempts := 5 }]).coldHeld = false
      ∧ ((alarmed [{ record 4 .high (.channel 1) .sent (.running 0) with attempts := 5 }]).alarms.map (·.seq)).Nodup
      ∧ (alarmed []).north.link = .sync
      ∧ (alarmed [{ record 4 .high (.channel 1) .sent (.running 0) with attempts := 5 }]).alarms =
          [] ++ { record 4 .high (.channel 1) .sent (.running 0) with attempts := 5 } :: []
      ∧ 1 ≤ (alarmed []).settings.retry ∧ (alarmed []).settings.retry ≤ 5 ∧ 4 < (alarmed []).settings.retry
      ∧ ({ alarmed [] with settings := { Settings.default with retry := 0 } } : State).settings.retry = 0
      ∧ State.reset.north.link = .hunt
      ∧ (∀ r ∈ (alarmed [record 4 .high (.channel 1) .sent .due]).alarms, r.seq = 4 → r.resend ≠ .running 0)
      ∧ (∀ r ∈ (alarmed [record 4 .high (.channel 1) .sent (.running 1)]).alarms, r.seq = 4 → r.resend ≠ .running 0) := by
  decide +kernel

/-- The part with loops 3 and 7 pending or not, a south pass-through FIFO and the last winner and served loop. -/
def southQueues (p3 p7 : Bool) (fifo : List Cell) (winner : Claimant) (served : Fin 16) : State :=
  { linked .active with
    loops := ((linked .active).loops.set (3 : Fin 16) { Loop.coldReset with pending := p3 }).set (7 : Fin 16)
      { Loop.coldReset with pending := p7 }
    southFifo := fifo, lastWinner := winner, lastServed := served }

/-- The next pending loop after loop 3 is 7, after 7 and after 15 it is 3; a contended slot in both directions. -/
theorem witness_SouthSlotSharesFairly :
    (southQueues true true [fillCell] .passThrough 3).coldHeld = false ∧ State.reset.south.link = .hunt
      ∧ (southQueues true true [fillCell] .passThrough 3).south.link = .sync
      ∧ (southQueues true true [fillCell] .passThrough 3).southFifo = fillCell :: []
      ∧ (southQueues true true [] .loops 3).lastWinner = .loops ∧ (southQueues true true [] .loops 3).southFifo = []
      ∧ (southQueues true true [] .loops 3).loops[(7 : Fin 16)].pending = true
      ∧ ((3 : Fin 16) < 7 ∧ ∀ j : Fin 16, 3 < j → j < 7 → (southQueues true true [] .loops 3).loops[j].pending = false)
      ∧ ((∀ j : Fin 16, 7 < j → (southQueues true true [] .loops 7).loops[j].pending = false)
        ∧ ∀ j : Fin 16, j < 3 → (southQueues true true [] .loops 7).loops[j].pending = false)
      ∧ (southQueues true true [] .loops 15).loops[(3 : Fin 16)].pending = true
      ∧ (∀ j : Fin 16, 15 < j → (southQueues true true [] .loops 15).loops[j].pending = false)
      ∧ ∀ k : Fin 16, (southQueues false false [] .loops 15).loops[k].pending = false := by decide +kernel

/-- A loop in a state with a drive on a source in a state with LAST as given, its step timer running. -/
def stepping (st : LoopState) (drive : Nat) (source : ChannelState) (last : Option Int) : State :=
  withLoop (withEntry (linked .active) someCfg { dynIn source 0 with last := last }) st drive

theorem witness_StepOutsideRunning :
    (stepping .stopped 0 .stale (some 361)).coldHeld = false
      ∧ (stepping .stopped 0 .stale (some 361)).loops[(3 : Fin 16)].stepTimer = some 0
      ∧ (stepping .stopped 0 .stale (some 361)).loops[(3 : Fin 16)].cfg.source = 9
      ∧ (stepping .stopped 0 .stale (some 361)).channels[(9 : Fin 128)].dyn.state = .stale
      ∧ (stepping .stopped 0 .unseen none).channels[(9 : Fin 128)].dyn.last = none
      ∧ LoopState.stopped.automatic = true ∧ (stepping .stopped 0 .stale none).loops[(0 : Fin 16)].stepTimer ≠ some 0
      ∧ (stepping .stopped 0 .normal (some 361)).channels[(9 : Fin 128)].dyn.state ≠ .stale
      ∧ (stepping .stopped 0 .normal (some 361)).channels[(9 : Fin 128)].dyn.last = some 361
      ∧ (stepping .stopWait 64 .normal (some 361)).loops[(3 : Fin 16)].state = .stopWait
      ∧ someLoopCfg.demand 361 = .up ∧ someLoopCfg.demand 360 ≠ .up := by decide +kernel

/-- Demands on either side of TARGET ± TOLERANCE; DRIVE at and below MAX_DUTY, at and above STOP_DUTY; SAT_COUNT below, at and
above SAT_LIMIT; STOP_TIME 0 and more. -/
theorem witness_StepInRunningRegulates :
    (stepping .running 223 .normal (some 361)).loops[(3 : Fin 16)].state = .running
      ∧ (stepping .starting 128 .normal (some 361)).loops[(3 : Fin 16)].state = .starting
      ∧ (stepping .running 223 .normal (some 361)).loops[(3 : Fin 16)].stepTimer = some 0
      ∧ (stepping .running 223 .normal (some 361)).channels[(9 : Fin 128)].dyn.state ≠ .stale
      ∧ (stepping .running 223 .normal (some 361)).channels[(9 : Fin 128)].dyn.last = some 361
      ∧ someLoopCfg.demand 361 = .up ∧ someLoopCfg.demand 360 = .hold ∧ someLoopCfg.demand 340 = .hold
      ∧ someLoopCfg.demand 339 = .down ∧ 223 < someLoopCfg.maxDuty ∧ someLoopCfg.maxDuty ≤ 224
      ∧ 1 + 1 < someLoopCfg.satLimit ∧ 2 + 1 = someLoopCfg.satLimit ∧ 3 = someLoopCfg.satLimit ∧ someLoopCfg.satLimit < 4
      ∧ someLoopCfg.stopDuty < 65 ∧ 64 ≤ someLoopCfg.stopDuty ∧ 0 < someLoopCfg.stopTime
      ∧ ({ someLoopCfg with stopTime := 0 } : LoopConfig).stopTime = 0 := by decide +kernel

/-- R80: an error of TOLERANCE is HOLD on both senses, one more or one less is UP or DOWN. -/
theorem test_demand_at_the_tolerance :
    (({ someLoopCfg with sense := .falling } : LoopConfig).demand 339, ({ someLoopCfg with sense := .falling } : LoopConfig).demand 340,
        ({ someLoopCfg with sense := .falling } : LoopConfig).demand 361) = (.up, .hold, .down) := by decide

/-- The part with loop 3 in STOP_WAIT, its stop and refresh timers `ticks` boundaries from their counts. -/
def waiting (ticks : Nat) : State :=
  { linked .active with
    loops := (linked .active).loops.set (3 : Fin 16)
      { Loop.coldReset with cfg := someLoopCfg, state := .stopWait, drive := 64, stopTimer := some ticks
                            refreshTimer := some ticks } }

theorem witness_StopAndRefreshTimersExpire :
    (waiting 0).coldHeld = false ∧ (waiting 0).loops[(3 : Fin 16)].stopTimer = some 0
      ∧ (waiting 0).loops[(3 : Fin 16)].state = .stopWait ∧ (waiting 0).loops[(3 : Fin 16)].refreshTimer = some 0
      ∧ (waiting 1).loops[(3 : Fin 16)].stopTimer ≠ some 0 ∧ (waiting 1).loops[(3 : Fin 16)].refreshTimer ≠ some 0
      ∧ (waiting 0).loops[(0 : Fin 16)].stopTimer ≠ some 0 ∧ (waiting 0).loops[(0 : Fin 16)].refreshTimer ≠ some 0 := by
  decide +kernel

theorem witness_SourceEventsHoldAndResume :
    (looped .stopWait 64).loops[(3 : Fin 16)].cfg.source = 9 ∧ (looped .stopWait 64).loops[(3 : Fin 16)].state = .stopWait
      ∧ (looped .held 255).loops[(3 : Fin 16)].state = .held ∧ someLoopCfg.stopDuty ≤ someLoopCfg.failsafeDuty
      ∧ ¬({ someLoopCfg with failsafeDuty := 63 } : LoopConfig).stopDuty ≤ 63 := by decide +kernel

/-- The part with an OPEN session, entry 9 loaded, loop 3 in a state, and one request waiting. -/
def openWith (st : LoopState) (drive : Nat) (c : Cell) : State :=
  { looped st drive with session := .opened, sessionTimer := some 300, requests := [c] }

/-- Every request of these states can be taken; three response places are in use and one is free. -/
theorem openWith_canTake (st : LoopState) (drive : Nat) (c : Cell) : (openWith st drive c).CanTake c [] :=
  ⟨rfl, rfl, rfl, by show 0 + 0 < 4; decide⟩

theorem witness_CanTake_with_one_place_free :
    ({ openWith .running 100 (request 1 0 9 0 32) with responses := List.replicate 3 fillCell } : State).CanTake
      (request 1 0 9 0 32) [] := by decide +kernel

/-- The checks of MANUAL: SPACE, ENTRY 16, VALUE −2 and 256 refused; loop 3 taken with 0, 255 and −1. -/
theorem witness_ManualOverridesLoops :
    (openWith .running 100 (request 10 0 3 0 0)).CanTake (request 10 0 3 0 0) []
      ∧ (openWith .running 100 (request 10 1 3 0 0)).session = .opened ∧ (request 10 0 3 0 0).op = 10
      ∧ (request 10 0 3 0 0).space ≠ 1 ∧ (request 10 1 16 0 0).space = 1 ∧ 16 ≤ (request 10 1 16 0 0).b1.toNat
      ∧ (request 10 1 15 (-2) 0).b1.toNat < 16 ∧ (request 10 1 15 (-2) 0).value < -1 ∧ 255 < (request 10 1 15 256 0).value
      ∧ (request 10 1 3 0 0).value = (0 : Nat) ∧ (request 10 1 3 255 0).value = (255 : Nat)
      ∧ (request 10 1 3 (-1) 0).value = -1
      ∧ (request 10 1 3 255 0).b1.toNat = ((3 : Fin 16) : Nat)
      ∧ (openWith .running 100 fillCell).loops[(3 : Fin 16)].state ≠ .disabled
      ∧ (openWith .running 100 fillCell).loops[(0 : Fin 16)].state = .disabled
      ∧ (openWith .manual 64 fillCell).loops[(3 : Fin 16)].state = .manual
      ∧ (openWith .manual 64 fillCell).channels[(9 : Fin 128)].dyn.state ≠ .stale
      ∧ (openWith .manual 64 fillCell).channels[(9 : Fin 128)].dyn.state ≠ .unseen
      ∧ (withEntry (openWith .manual 64 fillCell) someCfg (dynIn .stale 0)).channels[(9 : Fin 128)].dyn.state = .stale
      ∧ someLoopCfg.stopDuty ≤ 64 ∧ 63 < someLoopCfg.stopDuty := by decide +kernel

theorem witness_NothingIsTakenOutOfTurn :
    Instr.read.row ≠ none ∧ ({ opened with agent := .committing fillCell } : State).agent ≠ .idle ∧ opened.requests = []
      ∧ 4 ≤ ({ opened with responses := List.replicate 4 fillCell } : State).reserved + 4
      ∧ 4 ≤ ({ opened with reserved := 1, responses := List.replicate 3 fillCell } : State).reserved + 3
      ∧ opened.agent = .idle
      ∧ Instr.read.row = some .read ∧ (asked opened (request 7 0 9 0 0)).requests = request 7 0 9 0 0 :: []
      ∧ RequestRow.read.takes (Request.ofCell (request 7 0 9 0 0)) = false
      ∧ RequestRow.removeLoop.takes (Request.ofCell (request 7 0 9 0 0)) = false
      ∧ RequestRow.removeChannel.takes (Request.ofCell (request 7 0 9 0 0)) = true := by decide +kernel

/-- Requests 4 to 8 and 10 to 13 at gate 3, requests 6 to 8 at gate 4. -/
theorem witness_GatesRefuseWithoutEffect :
    (asked (linked .active) (request 4 0 9 0 0)).CanTake (request 4 0 9 0 0) []
      ∧ Instr.editLoad.row = some .editLoad ∧ RequestRow.editLoad.takes (Request.ofCell (request 4 0 9 0 0)) = true
      ∧ 4 ≤ (request 4 0 9 0 0).op ∧ (request 8 3 0 0 2).op ≤ 8 ∧ 10 ≤ (request 10 1 3 0 0).op ∧ (request 13 0 0 0 0).op ≤ 13
      ∧ RequestRow.setPart.takes (Request.ofCell (request 8 3 0 0 2)) = true
      ∧ RequestRow.manual.takes (Request.ofCell (request 10 1 3 0 0)) = true
      ∧ RequestRow.freeze.takes (Request.ofCell (request 13 0 0 0 0)) = true
      ∧ (linked .active).session ≠ .opened
      ∧ ({ openWith .running 100 (request 6 0 9 0 0) with frozen := true } : State).CanTake (request 6 0 9 0 0) []
      ∧ ({ openWith .running 100 (request 6 0 9 0 0) with frozen := true } : State).frozen = true
      ∧ RequestRow.commit.takes (Request.ofCell (request 6 0 9 0 0)) = true
      ∧ RequestRow.removeChannel.takes (Request.ofCell (request 7 0 9 0 0)) = true
      ∧ RequestRow.removeLoop.takes (Request.ofCell (request 7 1 3 0 0)) = true
      ∧ (request 6 0 9 0 0).op = 6 ∧ (request 7 0 9 0 0).op = 7 ∧ (request 8 3 0 0 2).op = 8 := by decide +kernel

theorem witness_ReadAndUnknownCodeAnswer :
    (asked (linked .active) (request 1 0 9 0 32)).CanTake (request 1 0 9 0 32) [] ∧ (request 1 0 9 0 32).op = 1
      ∧ (asked (linked .active) (request 0 0 0 0 0)).CanTake (request 0 0 0 0 0) [] ∧ (request 0 0 0 0 0).op = 0
      ∧ 14 ≤ (request 14 0 0 0 0).op ∧ 14 ≤ (request 31 0 0 0 0).op := by decide +kernel

/-- The first SPACE and ENTRY that are refused, the last that are answered, and the edit buffer in its three conditions. -/
theorem witness_ReadChecksInOrder :
    6 ≤ (request 1 6 0 0 0).space ∧ 6 ≤ (request 1 7 0 0 0).space ∧ 128 ≤ (request 1 0 128 0 0).b1.toNat
      ∧ 16 ≤ (request 1 1 16 0 0).b1.toNat ∧ 8 ≤ (request 1 4 8 0 0).b1.toNat ∧ 32 ≤ (request 1 5 32 0 0).b1.toNat
      ∧ (request 1 2 0 0 0).space = 2 ∧ (linked .active).editBuffer = .empty
      ∧ ({ opened with editBuffer := .channel someCfg } : State).editBuffer = .channel someCfg
      ∧ ({ opened with editBuffer := .loop someLoopCfg } : State).editBuffer = .loop someLoopCfg
      ∧ (request 1 0 127 0 17).space = 0 ∧ (request 1 0 127 0 17).b1.toNat = ((127 : Fin 128) : Nat)
      ∧ (request 1 1 15 0 18).space = 1 ∧ (request 1 1 15 0 18).b1.toNat = ((15 : Fin 16) : Nat)
      ∧ (request 1 3 0 0 20).space = 3
      ∧ (request 1 4 7 0 3).b1.toNat < 8 ∧ 3 ≤ (request 1 4 7 0 3).b6.toNat ∧ (request 1 4 7 0 2).b6.toNat < 3
      ∧ (missing (misses 7)).missList.length ≤ (request 1 4 7 0 2).b1.toNat
      ∧ (missing (misses 8)).missList[(request 1 4 7 0 2).b1.toNat]? = some ⟨⟨8, 0⟩, 1⟩
      ∧ (request 1 5 31 0 7).b1.toNat < 32 ∧ 7 ≤ (request 1 5 31 0 7).b6.toNat
      ∧ (alarmed []).alarms.length ≤ (request 1 5 0 0 6).b1.toNat
      ∧ (alarmed [record 8 .lost .noSubject .new .stopped]).alarms[(request 1 5 0 0 2).b1.toNat]? =
          some (record 8 .lost .noSubject .new .stopped) := by decide +kernel

/-- R144, R185: of a LOADED channel record READ answers EDIT_SPACE and the edit fields, and no entry field. -/
theorem test_read_of_the_edit_space :
    [63, 1, 0, 16].map (fun f => ({ opened with editBuffer := .channel someCfg } : State).readReply
        (Request.ofCell (request 1 2 0 0 f))) =
      [.result 0, .result 5, .plain .badField, .plain .badField] := by decide +kernel

/-- Phase numbers 0, 1, 2 and 3 in CLOSED and OPEN, and phase 2 with and without the proposal that stands. -/
theorem witness_OpenIsATwoPhaseHandshake :
    (asked (linked .active) (request 2 0 0 0 1)).CanTake (request 2 0 0 0 1) [] ∧ (request 2 0 0 0 1).op = 2
      ∧ (request 2 0 0 0 1).b6.toNat = 1 ∧ (linked .active).session ≠ .opened ∧ opened.session = .opened
      ∧ (request 2 0 0 0 0).b6.toNat ≠ 1 ∧ (request 2 0 0 0 0).b6.toNat ≠ 2 ∧ (request 2 0 0 0 3).b6.toNat ≠ 2
      ∧ (request 2 0 0 42 2).b6.toNat = 2 ∧ (request 2 0 0 42 2).value = (42 : Nat)
      ∧ ({ asked (linked .active) (request 2 0 0 42 2) with session := .proposed, proposal := some 42 } : State).CanTake
          (request 2 0 0 42 2) []
      ∧ ({ linked .active with session := .proposed, proposal := some 42 } : State).session = .proposed
      ∧ ({ linked .active with session := .proposed, proposal := some 42 } : State).proposal = some 42
      ∧ (request 2 0 0 41 2).value ≠ (42 : Nat) := by decide +kernel

theorem witness_SessionEndsByCloseOrTimer :
    (openWith .running 100 (request 3 0 0 0 0)).CanTake (request 3 0 0 0 0) [] ∧ (request 3 0 0 0 0).op = 3
      ∧ (openWith .running 100 fillCell).session = .opened ∧ (linked .active).session = .closed
      ∧ ({ linked .active with session := .proposed } : State).session = .proposed ∧ opened.coldHeld = false
      ∧ ({ opened with sessionTimer := some 0 } : State).sessionTimer = some 0 ∧ opened.sessionTimer ≠ some 0
      ∧ ({ linked .active with proposalTimer := some 0 } : State).proposalTimer = some 0
      ∧ ({ linked .active with proposalTimer := some 100 } : State).proposalTimer ≠ some 0
      ∧ opened.proposalTimer ≠ some 0 ∧ (linked .active).sessionTimer ≠ some 0 := by decide +kernel

/-- The last and the first refused ENTRY of both spaces, the edit buffer in its three conditions. -/
theorem witness_EditBufferIsLoadedAndSet :
    (openWith .running 100 (request 4 0 127 0 0)).CanTake (request 4 0 127 0 0) []
      ∧ (openWith .running 100 fillCell).session = .opened ∧ (request 4 0 127 0 0).op = 4 ∧ (request 4 0 127 0 0).space = 0
      ∧ (request 4 0 127 0 0).b1.toNat = ((127 : Fin 128) : Nat) ∧ (request 4 1 15 0 0).b1.toNat = ((15 : Fin 16) : Nat)
      ∧ 2 ≤ (request 4 2 0 0 0).space ∧ 128 ≤ (request 4 0 128 0 0).b1.toNat ∧ 16 ≤ (request 4 1 16 0 0).b1.toNat
      ∧ (request 5 0 0 0 2).op = 5 ∧ (request 5 1 0 0 2).space ≤ 1 ∧ (openWith .running 100 fillCell).editBuffer = .empty
      ∧ ({ opened with editBuffer := .channel someCfg } : State).editBuffer = .channel someCfg
      ∧ ({ opened with editBuffer := .loop someLoopCfg } : State).editBuffer = .loop someLoopCfg := by decide +kernel

/-- The ends of the field numbers of the three tables, values at the ends of a range and just outside, and one written field of
each. -/
theorem witness_FieldWritesChangeOneField :
    someCfg.write 11 3 = .written { someCfg with policy := .suppress } ∧ someCfg.write 11 4 = .badValue
      ∧ someCfg.write 8 0 = .badValue ∧ someCfg.write 8 1 = .written { someCfg with trips := 1 }
      ∧ someCfg.write 8 8 = .written { someCfg with trips := 8 } ∧ someCfg.write 8 9 = .badValue
      ∧ someCfg.write 17 0 = .unlisted ∧ someCfg.write 255 0 = .unlisted ∧ someCfg.write 63 0 = .readOnly
      ∧ someLoopCfg.write 1 ((127 : Fin 128) : Nat) = .written { someLoopCfg with source := 127 }
      ∧ someLoopCfg.write 1 128 = .badValue
      ∧ someLoopCfg.write 7 64 = .written { someLoopCfg with step := 64 } ∧ someLoopCfg.write 7 65 = .badValue
      ∧ someLoopCfg.write 17 0 = .readOnly ∧ someLoopCfg.write 18 0 = .unlisted ∧ someLoopCfg.write 37 0 = .unlisted
      ∧ Settings.default.write 6 10 = .written { Settings.default with sessionTimeout := 10 }
      ∧ Settings.default.write 6 9 = .badValue ∧ Settings.default.write 1 0 = .readOnly
      ∧ Settings.default.write 20 0 = .readOnly ∧ Settings.default.write 21 0 = .unlisted := by decide +kernel

theorem witness_CommitIsScreened :
    (openWith .running 100 (request 6 0 127 0 0)).CanTake (request 6 0 127 0 0) []
      ∧ (openWith .running 100 fillCell).frozen = false ∧ (request 6 0 127 0 0).op = 6 ∧ (request 6 0 127 0 0).space = 0
      ∧ (request 6 0 127 0 0).b1.toNat < 128 ∧ 128 ≤ (request 6 0 128 0 0).b1.toNat ∧ (request 6 1 15 0 0).b1.toNat < 16
      ∧ 16 ≤ (request 6 1 16 0 0).b1.toNat ∧ (request 6 1 15 0 0).space = 1 ∧ 2 ≤ (request 6 2 0 0 0).space
      ∧ ({ opened with editBuffer := .channel someCfg } : State).editBuffer = .channel someCfg
      ∧ ({ opened with editBuffer := .loop someLoopCfg } : State).editBuffer = .loop someLoopCfg := by decide +kernel

/-- Each check of both COMMITs at the last value it passes and the first it refuses; an entry and a loop that hold the key. -/
theorem witness_CommitChecksInOrder :
    (¬1 ≤ ({ someCfg with node := 0 } : ChannelConfig).node) ∧ (1 ≤ someCfg.node ∧ someCfg.node ≤ 63)
      ∧ ¬({ someCfg with low := 100 } : ChannelConfig).low < someCfg.high
      ∧ ((({ someCfg with hyst := 200 } : ChannelConfig).hyst : Int) ≤ someCfg.high - someCfg.low)
      ∧ ¬(({ someCfg with hyst := 201 } : ChannelConfig).hyst : Int) ≤ someCfg.high - someCfg.low
      ∧ (looped .running 100).KeysDistinct
      ∧ ((9 : Fin 128) ≠ 8 ∧ (looped .running 100).channels[(9 : Fin 128)].valid = true
        ∧ (looped .running 100).channels[(9 : Fin 128)].cfg.key = someCfg.key)
      ∧ ((looped .running 100).loops[(3 : Fin 16)].state ≠ .disabled
        ∧ (looped .running 100).loops[(3 : Fin 16)].cfg.source = 9)
      ∧ (∀ k : Fin 16, k < 3 → (looped .running 100).loops[k].state = .disabled)
      ∧ (looped .running 100).channels[(9 : Fin 128)].cfg.key ≠ ({ someCfg with point := 3 } : ChannelConfig).key
      ∧ (∀ m : Fin 128, ¬(m ≠ 9 ∧ (looped .running 100).channels[m].valid = true))
      ∧ (looped .running 100).ActuatorsDistinct
      ∧ someLoopCfg.enable = true ∧ (looped .running 100).channels[someLoopCfg.source].valid = true
      ∧ (looped .running 100).channels[({ someLoopCfg with source := 8 } : LoopConfig).source].valid ≠ true
      ∧ (someLoopCfg.stopDuty ≤ someLoopCfg.startDuty ∧ someLoopCfg.startDuty ≤ someLoopCfg.maxDuty)
      ∧ ¬someLoopCfg.stopDuty ≤ ({ someLoopCfg with startDuty := 63 } : LoopConfig).startDuty
      ∧ (3 : Fin 16) ≠ 0 ∧ (looped .running 100).loops[(3 : Fin 16)].cfg.actKey = someLoopCfg.actKey := by
  refine ⟨by decide, by decide, by decide, by decide, by decide, looped_keysDistinct _ _, by decide +kernel, by decide +kernel,
    by decide +kernel, by decide +kernel, by decide +kernel, looped_actuatorsDistinct _ _, ?_⟩
  decide +kernel

/-- The part with a COMMIT of a cell in flight and an edit buffer. -/
def committing (st : LoopState) (drive : Nat) (c : Cell) (b : EditBuffer) : State :=
  { looped st drive with session := .opened, agent := .committing c, reserved := 1, editBuffer := b }

/-- A refused install, a reinstall under the same key, and an install that changes the key. -/
theorem witness_EndOfScanInstallsChannel :
    (committing .disabled 0 (request 6 0 9 0 0) (.channel someCfg)).coldHeld = false
      ∧ (request 6 0 9 0 0).space = 0 ∧ (request 6 0 9 0 0).b1.toNat = ((9 : Fin 128) : Nat)
      ∧ (committing .disabled 0 (request 6 0 8 0 0) (.channel someCfg)).channelChecks 8 someCfg = some (.naming .duplicate 9)
      ∧ (committing .disabled 0 (request 6 0 9 0 0) (.channel someCfg)).channelChecks 9 someCfg = none
      ∧ (committing .disabled 0 (request 6 0 9 0 0) (.channel someCfg)).channels[(9 : Fin 128)].valid = true
      ∧ (committing .disabled 0 (request 6 0 9 0 0) (.channel someCfg)).channels[(9 : Fin 128)].cfg.key = someCfg.key
      ∧ (committing .disabled 0 (request 6 0 9 0 0) (.channel { someCfg with point := 3 })).channelChecks 9
          { someCfg with point := 3 } = none
      ∧ ¬((committing .disabled 0 fillCell .empty).channels[(8 : Fin 128)].valid = true) := by decide +kernel

/-- An install of loop 3 in each of its states, under the same bindings and under others. -/
theorem witness_EndOfScanInstallsLoop :
    (committing .running 100 (request 6 1 3 0 0) (.loop someLoopCfg)).coldHeld = false
      ∧ (committing .running 100 (request 6 1 3 0 0) (.loop someLoopCfg)).session = .opened
      ∧ (request 6 1 3 0 0).space = 1 ∧ (request 6 1 3 0 0).b1.toNat = ((3 : Fin 16) : Nat)
      ∧ (committing .running 100 (request 6 1 3 0 0) (.loop someLoopCfg)).loopChecks 3 someLoopCfg = none
      ∧ (committing .running 100 (request 6 1 3 0 0) (.loop someLoopCfg)).loopChecks 3 { someLoopCfg with startDuty := 63 } =
          some (.failedCheck 3)
      ∧ ({ someLoopCfg with enable := false } : LoopConfig).enable = false
      ∧ (committing .running 100 fillCell .empty).loops[(3 : Fin 16)].cfg.actKey ≠ ({ someLoopCfg with actPoint := 2 } : LoopConfig).actKey
      ∧ (∀ st ∈ [LoopState.running, .starting, .stopWait, .held, .stopped, .manual, .disabled],
          (committing st 100 fillCell .empty).loops[(3 : Fin 16)].state = st)
      ∧ (committing .running 100 fillCell .empty).loops[(3 : Fin 16)].cfg.source = someLoopCfg.source
      ∧ 0 < someLoopCfg.stopTime ∧ ({ someLoopCfg with stopTime := 0 } : LoopConfig).stopTime = 0
      ∧ 0 < someLoopCfg.stopDuty := by
  decide +kernel

/-- The refused spaces and entries, an entry that a loop uses, one that none uses, and a loop. -/
theorem witness_RemoveTakesOutOfService :
    (openWith .running 100 (request 7 0 9 0 0)).CanTake (request 7 0 9 0 0) []
      ∧ (openWith .running 100 fillCell).session = .opened ∧ (openWith .running 100 fillCell).frozen = false
      ∧ (request 7 0 9 0 0).op = 7 ∧ 2 ≤ (request 7 2 0 0 0).space ∧ 128 ≤ (request 7 0 128 0 0).b1.toNat
      ∧ 16 ≤ (request 7 1 16 0 0).b1.toNat ∧ (request 7 0 9 0 0).b1.toNat = ((9 : Fin 128) : Nat)
      ∧ ((openWith .running 100 fillCell).loops[(3 : Fin 16)].state ≠ .disabled
        ∧ (openWith .running 100 fillCell).loops[(3 : Fin 16)].cfg.source = 9)
      ∧ (∀ j : Fin 16, j < 3 → (openWith .running 100 fillCell).loops[j].state = .disabled)
      ∧ (∀ j : Fin 16, (openWith .disabled 0 fillCell).loops[j].state = .disabled)
      ∧ (request 7 1 3 0 0).b1.toNat = ((3 : Fin 16) : Nat) := by decide +kernel

/-- Refused spaces and fields; a field written without a switch, and the switch in both directions. -/
theorem witness_SetPartWritesSettings :
    (openWith .running 100 (request 8 3 0 0 2)).CanTake (request 8 3 0 0 2) [] ∧ (request 8 3 0 0 2).op = 8
      ∧ (request 8 2 0 0 2).space ≠ 3 ∧ (request 8 3 0 0 2).space = 3
      ∧ (linked .active).settings.write 21 0 = .unlisted ∧ (linked .active).settings.write 20 0 = .readOnly
      ∧ (linked .active).settings.write 2 2 = .badValue ∧ (linked .active).settings.write 2 0 = .written Settings.default
      ∧ (linked .pass).settings.write 2 1 = .written { Settings.default with mode := .active }
      ∧ (linked .active).settings.mode = .active ∧ Settings.default.mode = .pass ∧ (linked .pass).settings.mode = .pass
      ∧ (linked .pass).settings.write 2 0 = .written Settings.default
      ∧ ((openWith .running 100 fillCell).loops[(3 : Fin 16)].state ≠ .stopWait ∧ 0 < someLoopCfg.stopTime) := by decide +kernel

/-- Entry 9 in HIGH with TRIP_SEQ 4 and its record held, with CLEAR_MET as given and a request waiting. -/
def tripped (met : Bool) (c : Cell) : State :=
  { withEntry (linked .active) someCfg { dynIn .high 0 with tripSeq := some 4, clearMet := met } with
    alarms := [record 4 .high (.channel 9) .sent .due, record 5 .stale (.channel 8) .new .stopped], requests := [c] }

theorem tripped_names_four (met : Bool) (c : Cell) (m : Fin 128) :
    (tripped met c).channels[m].dyn.tripSeq = some 4 ↔ m = 9 := by
  have e : (tripped met c).channels[m] = if m = 9 then
      { valid := true, cfg := someCfg, revision := 1
        dyn := { dynIn .high 0 with tripSeq := some 4, clearMet := met }, deadline := none }
      else (linked .active).channels[m] := getElem_set_table ..
  rw [e]
  by_cases h : m = 9
  · simp [h]
  · rw [if_neg h, linked_channels]; simp [h, Channel.coldReset, ChannelDynamic.cleared]

/-- SEQ 4 is an entry's TRIP_SEQ, SEQ 5 is none's and SEQ 6 is no record's; ENTRY 9 is tripped and ENTRY 8 is not. -/
theorem witness_AcknowledgementRemovesAndReturns :
    (tripped false (request 9 5 0 4 0)).CanTake (request 9 5 0 4 0) [] ∧ (request 9 5 0 4 0).op = 9
      ∧ (request 9 5 0 4 0).space = 5 ∧ ((tripped true fillCell).alarms.map (·.seq)).Nodup
      ∧ (request 9 5 0 4 0).value = ((record 4 .high (.channel 9) .sent .due).seq : Int)
      ∧ (request 9 5 0 5 0).value = ((record 5 .stale (.channel 8) .new .stopped).seq : Int)
      ∧ (∀ n : Fin 128, (tripped true fillCell).channels[n].dyn.tripSeq ≠ some 5)
      ∧ (∀ m : Fin 128, (tripped true fillCell).channels[m].dyn.tripSeq = some 4 ↔ m = 9)
      ∧ (∀ r ∈ (tripped true fillCell).alarms, (r.seq : Int) ≠ (request 9 5 0 6 0).value)
      ∧ (tripped true fillCell).channels[(9 : Fin 128)].dyn.clearMet = true
      ∧ (tripped false fillCell).channels[(9 : Fin 128)].dyn.clearMet = false
      ∧ (request 9 0 9 0 0).space = 0 ∧ 128 ≤ (request 9 0 128 0 0).b1.toNat
      ∧ (request 9 0 9 0 0).b1.toNat = ((9 : Fin 128) : Nat)
      ∧ (tripped true fillCell).channels[(9 : Fin 128)].dyn.state = .high
      ∧ (tripped true fillCell).channels[(8 : Fin 128)].dyn.state ≠ .high
      ∧ (tripped true fillCell).channels[(8 : Fin 128)].dyn.state ≠ .low
      ∧ (request 9 2 0 0 0).space ≠ 0 ∧ (request 9 2 0 0 0).space ≠ 5 := by
  refine ⟨by decide +kernel, by decide +kernel, by decide +kernel, by decide +kernel, by decide +kernel, by decide +kernel,
    by decide +kernel, tripped_names_four _ _, ?_⟩
  decide +kernel

theorem witness_ClearAndFreeze :
    (openWith .running 100 (request 11 4 0 0 0)).CanTake (request 11 4 0 0 0) []
      ∧ (openWith .running 100 fillCell).session = .opened ∧ (request 11 4 0 0 0).op = 11 ∧ (request 11 4 0 0 0).space = 4
      ∧ (request 11 3 0 0 0).space = 3 ∧ (request 11 5 0 0 0).space ≠ 3 ∧ (request 11 5 0 0 0).space ≠ 4
      ∧ (openWith .running 100 (request 13 0 0 0 0)).CanTake (request 13 0 0 0 0) [] ∧ (request 13 0 0 0 0).op = 13 := by
  decide +kernel

theorem witness_RestartRequestMakesWarmReset :
    (openWith .running 100 (request 12 0 0 0 0)).CanTake (request 12 0 0 0 0) []
      ∧ (openWith .running 100 fillCell).session = .opened ∧ (request 12 0 0 0 0).op = 12
      ∧ (openWith .running 100 fillCell).north.link = .sync ∧ State.reset.north.link = .hunt := by decide +kernel

/-- The entry of the part below: ON_CHANGE, its forward refresh timer running, its deadline running. -/
def soundEntry : Channel :=
  { valid := true, cfg := { someCfg with policy := .onChange, refresh := 255 }, revision := 255
    dyn := { dynIn .high 2 with tripSeq := some 4, sent := some 32767, forward := .running 1 }, deadline := some 30 }

/-- A part in which every invariant has something to say: entry 9 in HIGH with its record held, loop 3 in RUNNING on it, a
miss listed, an OPEN session with a loaded edit buffer, a full FIFO and counters at their ends. NORTH_SLOT waits. -/
def sound : State :=
  { linked .active with
    channels := (linked .active).channels.set (9 : Fin 128) soundEntry
    loops := (linked .active).loops.set (3 : Fin 16)
      { Loop.coldReset with cfg := someLoopCfg, state := .running, drive := 224, satCount := 3, guardCount := 255
                            stepTimer := some 5 }
    alarms := [record 4 .high (.channel 9) .sent .due, record 255 .lost .noSubject .new .stopped], nextSeq := 255
    alertPin := true, missList := [⟨⟨7, 0⟩, 255⟩], misses := 65535, divider := 249999
    northFifo := List.replicate 32 fillCell, responses := List.replicate 4 fillCell
    session := .opened, sessionTimer := some 300, openCounter := 32767, editBuffer := .channel someCfg
    pending := [.northSlot] }

theorem sound_channels (n : Fin 128) : sound.channels[n] = if n = 9 then soundEntry else Channel.coldReset :=
  (getElem_set_table ..).trans (by rw [linked_channels])

theorem sound_loops (k : Fin 16) : sound.loops[k] = if k = 3 then
    { Loop.coldReset with cfg := someLoopCfg, state := .running, drive := 224, satCount := 3, guardCount := 255
                          stepTimer := some 5 }
    else Loop.coldReset :=
  (getElem_set_table ..).trans (by rw [linked_loops])

theorem northSlot_next (s : State) : exec .northSlot s = .next (after .northSlot s) := rfl

/-- The state that the step of `sound` leaves. -/
def soundNext : State := after .northSlot { sound with pending := [] }

theorem sound_steps : Machine.step sound = .next soundNext := by
  unfold Machine.step
  rw [show sound.pending = [.northSlot] from rfl]
  exact northSlot_next _

theorem witness_StaticPartsStandStill :
    exec .northSlot (linked .active) = .next (after .northSlot (linked .active)) ∧ Instr.northSlot ≠ .endOfScan
      ∧ Instr.northSlot ≠ .removeChannel ∧ Instr.northSlot ≠ .removeLoop ∧ (∀ e, Instr.northSlot ≠ .coldReset e)
      ∧ ({ linked .active with frozen := true } : State).frozen = true
      ∧ ({ linked .active with frozen := true } : State).agent = .idle
      ∧ exec .northSlot { linked .active with frozen := true } =
          .next (after .northSlot { linked .active with frozen := true }) :=
  ⟨northSlot_next _, by decide, by decide, by decide, fun _ h => (nomatch h), rfl, rfl, northSlot_next _⟩

theorem witness_StepKeepsQueueSound : sound.QueueSound ∧ Machine.step sound = .next soundNext := by
  refine ⟨⟨by decide +kernel, by decide +kernel, by decide +kernel, by decide +kernel, ?_, by decide +kernel, by decide +kernel,
    by decide +kernel⟩, sound_steps⟩
  intro r hr
  simp only [show sound.alarms = [record 4 .high (.channel 9) .sent .due, record 255 .lost .noSubject .new .stopped] from rfl,
    List.mem_cons, List.not_mem_nil, or_false] at hr
  rcases hr with rfl | rfl <;> simp [AlarmRecord.Sound, record]

theorem witness_StepKeepsLinesSound :
    sound.LinesSound ∧ Machine.step sound = .next soundNext :=
  ⟨⟨by decide +kernel, by decide +kernel, by decide +kernel, by decide +kernel, by decide +kernel, by decide +kernel, rfl⟩,
    sound_steps⟩

theorem witness_StepKeepsSessionSound :
    sound.SessionSound ∧ Machine.step sound = .next soundNext :=
  ⟨⟨by decide +kernel, by decide +kernel, by decide +kernel, by decide +kernel, trivial, by decide +kernel, fun _ h => nomatch h⟩,
    sound_steps⟩

theorem witness_StepKeepsKeysAndMissList :
    (sound.KeysDistinct ∧ sound.MissSound) ∧ Machine.step sound = .next soundNext := by
  refine ⟨⟨?_, by decide +kernel, by decide +kernel, by decide +kernel, by decide +kernel⟩, sound_steps⟩
  intro m n hm hn _
  rw [sound_channels] at hm hn
  by_cases h1 : m = 9
  · by_cases h2 : n = 9
    · rw [h1, h2]
    · rw [if_neg h2] at hn; exact absurd hn (by decide)
  · rw [if_neg h1] at hm; exact absurd hm (by decide)

theorem sound_channelsSound : sound.ChannelsSound := by
  intro n
  rw [sound_channels]
  by_cases h : n = 9
  · rw [if_pos h]
    simp [Channel.Sound, Channel.ForwardLaw, ChannelConfig.Installed, ChannelDynamic.Sound, dynIn, ChannelDynamic.cleared,
      someCfg, ChannelConfig.default, soundEntry, sound, linked]
  · rw [if_neg h]; simp [Channel.Sound, Channel.ForwardLaw, ChannelDynamic.Sound, Channel.coldReset, ChannelDynamic.cleared]

theorem witness_StepKeepsChannelsSound :
    sound.ChannelsSound ∧ Machine.step sound = .next soundNext :=
  ⟨sound_channelsSound, sound_steps⟩

theorem witness_StepKeepsTripsNamed :
    sound.QueueSound ∧ sound.ChannelsSound ∧ sound.TripsNamed
      ∧ Machine.step sound = .next soundNext := by
  refine ⟨witness_StepKeepsQueueSound.1, sound_channelsSound, ?_, sound_steps⟩
  intro n seq hn
  rw [sound_channels] at hn ⊢
  by_cases h : n = 9
  · rw [if_pos h] at hn ⊢
    exact ⟨record 4 .high (.channel 9) .sent .due, by decide +kernel, by simpa [record, soundEntry] using hn, by rw [h]; rfl, .inl ⟨rfl, rfl⟩⟩
  · rw [if_neg h] at hn; exact nomatch hn

theorem witness_StepKeepsLoopsSound :
    sound.LoopsSound ∧ Machine.step sound = .next soundNext := by
  refine ⟨?_, sound_steps⟩
  intro k
  rw [sound_loops]
  by_cases h : k = 3
  · rw [if_pos h]
    simp [Loop.Sound, Loop.DriveLaw, Loop.TimersLaw, Loop.EnableLaw, someLoopCfg, LoopConfig.default, Loop.coldReset, sound, linked,
      LoopState.automatic]
  · rw [if_neg h]
    simp [Loop.Sound, Loop.DriveLaw, Loop.TimersLaw, Loop.EnableLaw, LoopConfig.default, Loop.coldReset, LoopState.automatic]

theorem witness_StepKeepsActuatorsDistinct :
    sound.ActuatorsDistinct ∧ Machine.step sound = .next soundNext := by
  refine ⟨⟨?_, ?_⟩, sound_steps⟩
  · intro j k hj hk _
    rw [sound_loops] at hj hk
    by_cases h1 : j = 3
    · by_cases h2 : k = 3
      · rw [h1, h2]
      · rw [if_neg h2] at hk; exact absurd rfl hk
    · rw [if_neg h1] at hj; exact absurd rfl hj
  · decide +kernel

theorem witness_StepKeepsCountersAndColdReset :
    (sound.CountersSound ∧ sound.ColdSound) ∧ Machine.step sound = .next soundNext :=
  ⟨⟨⟨by decide +kernel, by decide +kernel, by decide +kernel, by decide +kernel, by decide +kernel, by decide +kernel,
    fun p => by cases p <;> exact ⟨by decide +kernel, by decide +kernel, by decide +kernel⟩⟩,
    fun h => absurd h (by decide +kernel)⟩, sound_steps⟩

theorem witness_StepKeepsRangesSound : sound.RangesSound ∧ Machine.step sound = .next soundNext := by
  refine ⟨⟨by unfold Settings.InRange; decide +kernel, ?_, fun n => ?_, fun k => ?_, fun r hr => ?_, by decide +kernel⟩,
    sound_steps⟩
  · show someCfg.InRange
    simp [InWord, ChannelConfig.InRange, someCfg, ChannelConfig.default]
  · rw [sound_channels]
    by_cases h : n = 9
    · rw [if_pos h]
      simp [InWord, ChannelConfig.InRange, ChannelDynamic.InRange, soundEntry, someCfg, ChannelConfig.default, dynIn,
        ChannelDynamic.cleared]
    · rw [if_neg h]
      simp [InWord, ChannelConfig.InRange, ChannelDynamic.InRange, Channel.coldReset, ChannelConfig.default,
        ChannelDynamic.cleared]
  · rw [sound_loops]
    by_cases h : k = 3
    · rw [if_pos h]; simp [InWord, Loop.InRange, LoopConfig.InRange, someLoopCfg, LoopConfig.default]
    · rw [if_neg h]; simp [InWord, Loop.InRange, LoopConfig.InRange, LoopConfig.default, Loop.coldReset]
  · simp only [show sound.alarms = [record 4 .high (.channel 9) .sent .due, record 255 .lost .noSubject .new .stopped] from rfl,
      List.mem_cons, List.not_mem_nil, or_false] at hr
    rcases hr with rfl | rfl <;> simp [InWord, AlarmRecord.InRange, record]

end Sys2Proof.Tests
end

/-! ## What a command can do to the tables, said once

`State.content` is what the statements of the Channel Table look at. `Effect` lists every change of it that a command can make,
each with the conditions under which the command makes it; `exec_causes` and `step_keeps` reduce a statement about every
command, or every step, to one case for each line of that list. -/

namespace Sys2Proof.Machine

/-! ### The content of the part -/

/-- The settings, the tables, the records, the edit buffer, the Agent's state and the frozen flag. -/
structure Content where
  settings   : Settings
  channels   : Vector Channel Config.channelCount
  missList   : List MissRecord
  alarms     : List AlarmRecord
  loops      : Vector Loop Config.loopCount
  editBuffer : EditBuffer
  agent      : AgentState
  frozen     : Bool

/-- The content of a state. -/
def State.content (s : State) : Content :=
  { settings := s.settings, channels := s.channels, missList := s.missList, alarms := s.alarms, loops := s.loops,
    editBuffer := s.editBuffer, agent := s.agent, frozen := s.frozen }

/-- Two states have one content exactly when they agree on its eight fields. -/
theorem State.content_eq_iff {s t : State} :
    t.content = s.content ↔ t.settings = s.settings ∧ t.channels = s.channels ∧ t.missList = s.missList
      ∧ t.alarms = s.alarms ∧ t.loops = s.loops ∧ t.editBuffer = s.editBuffer ∧ t.agent = s.agent
      ∧ t.frozen = s.frozen := by
  simp [State.content]

@[simp] theorem State.content_handNorth (s : State) (c : Cell) : (s.handNorth c).content = s.content := by
  simp [State.content]

@[simp] theorem State.content_handSouth (s : State) (c : Cell) : (s.handSouth c).content = s.content := by
  simp [State.content]

@[simp] theorem State.content_withReceiver (s : State) (p : Port) (r : Receiver) :
    (s.withReceiver p r).content = s.content := by
  cases p <;> rfl

@[simp] theorem State.content_goodTaken (s : State) (p : Port) : (s.goodTaken p).content = s.content :=
  s.content_withReceiver p _

@[simp] theorem State.content_resolveProposal (s : State) : s.resolveProposal.content = s.content := by
  simp [State.content]

@[simp] theorem State.content_complete (s : State) (c : Cell) (reply : Reply) :
    (s.complete c reply).content = s.content := by
  simp [State.content, State.complete]

/-- Taking a request from its queue leaves the content. -/
@[simp] theorem State.content_taken (s : State) (rest : List Cell) (reserved : Nat) :
    ({ s with requests := rest, reserved := reserved } : State).content = s.content := rfl

/-! ### The effects -/

/-- The records of a queue report what records of another one report: a record may have left, or differ in its announcement. -/
def ReportsOf (q q' : List AlarmRecord) : Prop :=
  ∀ r ∈ q', ∃ o ∈ q, r.kind = o.kind ∧ r.subject = o.subject ∧ r.value = o.value

/-- What becomes of a loop record when a command changes that record alone. -/
inductive LoopEffect (b : State) (l : Loop) : Loop → Prop
  | served : LoopEffect b l l.served
  | guarded : LoopEffect b l l.countGuard
  | stopExpired : LoopEffect b l l.stopExpired
  | refreshExpired : LoopEffect b l l.refreshExpired
  | sourceStale : LoopEffect b l l.sourceStale
  | manual (d : Nat) : d ≤ 255 → LoopEffect b l (l.enterManual d)
  | release (source : ChannelState) : LoopEffect b l (l.release b.settings.mode source)

/-- What the running of the part can do to the entries, the loops and the Alarm Queue of `b`, and when; all else of the content
stands. -/
inductive TableEffect (b : State) : State → Prop
  | nothing : TableEffect b b
  | linkUp (p : Port) : TableEffect b (b.enterSync p)
  | linkDown (p : Port) : TableEffect b (b.enterHunt p)
  | hit (n : Fin Config.channelCount) (c : Cell) : b.settings.mode = .active → b.channels[n].valid = true →
      TableEffect b (b.takeHit n c)
  | loop (k : Fin Config.loopCount) (l : Loop) : LoopEffect b b.loops[k] l → TableEffect b (b.updateLoop k (fun _ => l))
  | stepLoop (k : Fin Config.loopCount) (d : Demand) : TableEffect b (b.stepLoop k d)
  | alarms (q : List AlarmRecord) : ReportsOf b.alarms q → TableEffect b (b.withAlarms q)
  | deadline (n : Fin Config.channelCount) : b.channels[n].deadline.isSome → TableEffect b (b.deadlineExpires n)
  | forwardRefresh (n : Fin Config.channelCount) (ticks : Nat) : b.channels[n].dyn.forward = .running ticks →
      TableEffect b (b.updateDyn n (fun d => { d with forward := .expired }))
  | abandon (seq : Nat) : TableEffect b (b.abandon seq)
  | ackRecord (seq : Nat) (n : Fin Config.channelCount) : b.channels[n].dyn.tripSeq = some seq →
      TableEffect b ((b.removeRecord seq).acknowledge n)
  | ackEntry (n : Fin Config.channelCount) : b.channels[n].dyn.state = .high ∨ b.channels[n].dyn.state = .low →
      TableEffect b ((b.removeTripRecord n).acknowledge n)

/-- What command `i` can do to the content of the part `b`, and when. -/
inductive Effect (i : Instr) (b : State) : State → Prop
  | tables {u : State} : TableEffect b u → Effect i b u
  | coldReset (edge : ColdEdge) : i = .coldReset edge → Effect i b b.coldCondition
  | warmReset : Effect i b b.warmReset
  | miss (c : Cell) : (∀ n : Fin Config.channelCount, b.channels[n].valid = true → b.channels[n].cfg.key ≠ c.key) →
      Effect i b (b.takeMiss c)
  | clearMiss : Effect i b { b with missList := [] }
  | setPart (p : Settings) (field : Nat) (v : Int) : b.frozen = false → b.settings.write field v = .written p →
      Effect i b (b.withSettings p)
  | emptyBuffer : Effect i b { b with editBuffer := .empty }
  | loadChannel (n : Fin Config.channelCount) : Effect i b { b with editBuffer := .channel b.channels[n].cfg }
  | loadLoop (k : Fin Config.loopCount) : Effect i b { b with editBuffer := .loop b.loops[k].cfg }
  | setChannel (cfg cfg' : ChannelConfig) (field : Nat) (v : Int) : b.editBuffer = .channel cfg →
      cfg.write field v = .written cfg' → Effect i b { b with editBuffer := .channel cfg' }
  | setLoop (cfg cfg' : LoopConfig) (field : Nat) (v : Int) : b.editBuffer = .loop cfg →
      cfg.write field v = .written cfg' → Effect i b { b with editBuffer := .loop cfg' }
  | commit (c : Cell) : b.frozen = false → Effect i b { b with agent := .committing c }
  | scanRefused : b.agent ≠ .idle → Effect i b { b with agent := .idle }
  | installChannel (n : Fin Config.channelCount) (cfg : ChannelConfig) : i = .endOfScan → b.agent ≠ .idle →
      b.editBuffer = .channel cfg → b.channelChecks n cfg = none → Effect i b { b.installChannel n cfg with agent := .idle }
  | installLoop (k : Fin Config.loopCount) (cfg : LoopConfig) : i = .endOfScan → b.agent ≠ .idle →
      b.editBuffer = .loop cfg → b.loopChecks k cfg = none → Effect i b { b.installLoop k cfg with agent := .idle }
  | removeChannel (n : Fin Config.channelCount) : i = .removeChannel ∨ i = .removeLoop → b.frozen = false →
      b.controllingLoop n = none → Effect i b ((b.updateChannel n Channel.remove).withdrawChannel n)
  | removeLoop (k : Fin Config.loopCount) : i = .removeChannel ∨ i = .removeLoop → b.frozen = false →
      Effect i b ((b.updateLoop k Loop.remove).withdrawLoop k)
  | freeze : Effect i b { b with frozen := true }

/-- The content of `t` is what an effect of command `i` makes of the content of `s`. -/
def Causes (i : Instr) (s t : State) : Prop :=
  ∃ b u : State, b.content = s.content ∧ Effect i b u ∧ t.content = u.content

theorem Effect.causes {i : Instr} {s t : State} (h : Effect i s t) : Causes i s t := ⟨s, t, rfl, h, rfl⟩

theorem TableEffect.causes {i : Instr} {s t : State} (h : TableEffect s t) : Causes i s t := (Effect.tables h).causes

theorem Causes.of_content {i : Instr} {s t : State} (h : t.content = s.content) : Causes i s t :=
  ⟨s, s, rfl, .tables .nothing, h⟩

theorem Causes.refl (i : Instr) (s : State) : Causes i s s := .of_content rfl

/-- An effect on a part of the same content, up to what the content does not hold. -/
theorem Causes.congr {i : Instr} {s s' t t' : State} (h : Causes i s t) (hs : s.content = s'.content)
    (ht : t'.content = t.content) : Causes i s' t' := by
  obtain ⟨b, u, hb, he, hu⟩ := h
  exact ⟨b, u, hb.trans hs, he, ht.trans hu⟩

/-! ### Records that report the same -/

theorem ReportsOf.refl (q : List AlarmRecord) : ReportsOf q q := fun r hr => ⟨r, hr, rfl, rfl, rfl⟩

theorem ReportsOf.filter (q : List AlarmRecord) (p : AlarmRecord → Bool) : ReportsOf q (q.filter p) :=
  fun r hr => ⟨r, (List.mem_filter.1 hr).1, rfl, rfl, rfl⟩

theorem ReportsOf.map {f : AlarmRecord → AlarmRecord}
    (h : ∀ r, (f r).kind = r.kind ∧ (f r).subject = r.subject ∧ (f r).value = r.value) (q : List AlarmRecord) :
    ReportsOf q (q.map f) := by
  intro r hr
  obtain ⟨o, ho, rfl⟩ := List.mem_map.1 hr
  exact ⟨o, ho, h o⟩

theorem ReportsOf.announce {resend : Nat} {q q' : List AlarmRecord} {sent : AlarmRecord}
    (h : announce resend q = some (sent, q')) : ReportsOf q q' := by
  obtain ⟨older, r, younger, rfl, rfl, -, -⟩ := announce_eq_some h
  intro x hx
  rcases List.mem_append.1 hx with hx | hx
  · exact ⟨x, by simp [hx], rfl, rfl, rfl⟩
  · rcases List.mem_cons.1 hx with rfl | hx
    · exact ⟨r, by simp, rfl, rfl, rfl⟩
    · exact ⟨x, by simp [hx], rfl, rfl, rfl⟩

theorem AlarmRecord.linkBack_reports (r : AlarmRecord) :
    r.linkBack.kind = r.kind ∧ r.linkBack.subject = r.subject ∧ r.linkBack.value = r.value := by
  unfold AlarmRecord.linkBack; split <;> exact ⟨rfl, rfl, rfl⟩

theorem AlarmRecord.count_reports (r : AlarmRecord) :
    r.count.kind = r.kind ∧ r.count.subject = r.subject ∧ r.count.value = r.value := by
  unfold AlarmRecord.count; split <;> exact ⟨rfl, rfl, rfl⟩

/-! ### The takings of the Agent -/

/-- A request that is taken and served leaves the content, or its rule makes its effect past gates 3 and 4. -/
theorem Causes.takeAndServe {i : Instr} {row : RequestRow} {g : Gates} {rule : State → Request → Answer}
    (h : ∀ b r, g.refusal b = none → Causes i b (rule b r).state) (s : State) :
    Causes i s (s.takeAndServe row g rule) := by
  rcases s.takeRequest_cases row (fun s c r => s.serve g rule c r) with ht | ⟨c, rest, -, -, -, -, ht⟩
  · exact .of_content (congrArg _ ht)
  · rw [State.takeAndServe, ht]
    unfold State.serve
    dsimp only
    split
    · exact .of_content (by simp)
    · next hg => exact (h _ (Request.ofCell c) hg).congr (by simp) (by simp)

/-- A request past gates 3 and 4 that is refused while frozen finds the part not frozen. -/
theorem Gates.frozen_of_passed {s : State} (h : Gates.table.refusal s = none) : s.frozen = false := by
  cases hf : s.frozen
  · rfl
  · simp only [Gates.refusal, Gates.table, hf] at h
    split at h <;> simp_all

theorem causes_commit (s : State) : Causes .commit s (s.takeRequest .commit State.takeCommit) := by
  rcases s.takeRequest_cases .commit State.takeCommit with ht | ⟨c, rest, -, -, -, -, ht⟩
  · exact .of_content (congrArg _ ht)
  · rw [ht]
    unfold State.takeCommit
    dsimp only
    split
    · exact .of_content (by simp)
    · next hg =>
      split
      · exact .of_content (by simp)
      · exact (Effect.commit c (Gates.frozen_of_passed hg)).causes.congr (by simp) rfl

theorem causes_openPhase2 (s : State) : Causes .openPhase2 s (s.takeRequest .openPhase2 State.takePhase2) := by
  rcases s.takeRequest_cases .openPhase2 State.takePhase2 with ht | ⟨c, rest, -, -, -, -, ht⟩
  · exact .of_content (congrArg _ ht)
  · rw [ht]
    unfold State.takePhase2
    split
    · exact .of_content (State.content_complete _ c _)
    · exact .of_content (by simp)

theorem causes_close (s : State) : Causes .close s (s.takeRequest .close State.takeClose) := by
  rcases s.takeRequest_cases .close State.takeClose with ht | ⟨c, rest, -, -, -, -, ht⟩
  · exact .of_content (congrArg _ ht)
  · rw [ht]
    unfold State.takeClose
    split
    · exact (Effect.emptyBuffer (b := s)).causes.congr rfl (State.content_complete _ c _)
    · exact .of_content (State.content_complete _ c _)
    · exact .of_content (State.content_complete _ c _)

/-- A COMMIT that passes its screening installs the record of the edit buffer. -/
theorem State.screen_eq_passed {s : State} {r : Request} {target : CommitTarget} (h : s.screen r = .passed target) :
    (∃ n cfg, target = .channel n cfg ∧ s.editBuffer = .channel cfg)
      ∨ ∃ k cfg, target = .loop k cfg ∧ s.editBuffer = .loop cfg := by
  unfold State.screen at h
  split at h
  · next hb =>
    split at h
    · cases h
      exact .inl ⟨_, _, rfl, hb⟩
    · cases h
  · next hb =>
    split at h
    · cases h
      exact .inr ⟨_, _, rfl, hb⟩
    · cases h
  all_goals cases h

theorem causes_endScan {s : State} (ha : s.agent ≠ .idle) (c : Cell) : Causes .endOfScan s (s.endScan c) := by
  unfold State.endScan
  split
  · exact (Effect.scanRefused ha).causes.congr rfl (by simp)
  · next target hs =>
    rcases State.screen_eq_passed hs with ⟨n, cfg, rfl, hb⟩ | ⟨k, cfg, rfl, hb⟩
    · simp only [State.judge]
      split
      · exact (Effect.scanRefused ha).causes.congr rfl (by simp [State.answer])
      · next hc => exact (Effect.installChannel n cfg rfl ha hb hc).causes.congr rfl (by simp)
    · simp only [State.judge]
      split
      · exact (Effect.scanRefused ha).causes.congr rfl (by simp [State.answer])
      · next hc => exact (Effect.installLoop k cfg rfl ha hb hc).causes.congr rfl (by simp)

theorem causes_removeRule {i : Instr} (hi : i = .removeChannel ∨ i = .removeLoop) {b : State} (hf : b.frozen = false)
    (r : Request) : Causes i b (b.removeRule r).state := by
  unfold State.removeRule
  split
  · split
    · next n _ =>
      unfold State.removeEntry
      split
      · exact .refl i b
      · next hc => exact (Effect.removeChannel n hi hf hc).causes
    · exact .refl i b
  · split
    · next k _ => exact (Effect.removeLoop k hi hf).causes
    · exact .refl i b
  all_goals exact .refl i b

theorem causes_ack {i : Instr} (b : State) (r : Request) : Causes i b (b.ack r).state := by
  have drop : ∀ seq, Causes i b (b.removeRecord seq) := fun seq => (TableEffect.alarms _ (.filter b.alarms _)).causes
  unfold State.ack
  split
  · unfold State.ackSeq
    split
    · exact .refl i b
    · next rec _ =>
      dsimp only
      split
      · next n hn =>
        have htrip := (State.findChannel_eq_some.1 hn).1
        exact (TableEffect.ackRecord rec.seq n (by simpa using htrip)).causes
      · exact drop _
  · split
    · next n _ =>
      unfold State.ackEntry
      split
      · next h => exact (TableEffect.ackEntry n (.inl h)).causes
      · next h => exact (TableEffect.ackEntry n (.inr h)).causes
      all_goals exact .refl i b
    · exact .refl i b
  all_goals exact .refl i b

theorem causes_manualRule {i : Instr} (b : State) (r : Request) : Causes i b (b.manualRule r).state := by
  unfold State.manualRule
  split
  · split
    · next k _ =>
      split
      · next hv =>
        have drive : r.value ≠ -1 → Causes i b (b.updateLoop k (Loop.enterManual r.value.toNat)) :=
          fun h => (TableEffect.loop k _ (.manual r.value.toNat (by omega))).causes
        unfold State.manualLoop State.manualDone
        split
        · exact .refl i b
        · split
          · exact (TableEffect.loop k _ (.release _)).causes
          · next h => exact drive h
        all_goals
          split
          · exact .refl i b
          · next h => exact drive h
      · exact .refl i b
    · exact .refl i b
  all_goals exact .refl i b

theorem causes_clearRule {i : Instr} (b : State) (r : Request) : Causes i b (b.clearRule r).state := by
  unfold State.clearRule
  split
  · exact Effect.clearMiss.causes
  · exact .of_content rfl
  all_goals exact .refl i b

theorem causes_setPartRule {i : Instr} {b : State} (hf : b.frozen = false) (r : Request) :
    Causes i b (b.setPartRule r).state := by
  unfold State.setPartRule
  split
  · split
    · exact .refl i b
    · exact .refl i b
    · exact .refl i b
    · next p hw => exact (Effect.setPart p _ _ hf hw).causes
  all_goals exact .refl i b

theorem causes_editLoadRule {i : Instr} (b : State) (r : Request) : Causes i b (b.editLoadRule r).state := by
  unfold State.editLoadRule
  split
  · split
    · next n _ => exact (Effect.loadChannel n).causes
    · exact .refl i b
  · split
    · next k _ => exact (Effect.loadLoop k).causes
    · exact .refl i b
  all_goals exact .refl i b

/-- A write into the edit buffer leaves the part, or loads the record written. -/
theorem State.editWritten_cases {α : Type} (s : State) (v : Int) (load : α → EditBuffer) (w : FieldWrite α) :
    (s.editWritten v load w).state = s
      ∨ ∃ cfg, w = .written cfg ∧ (s.editWritten v load w).state = { s with editBuffer := load cfg } := by
  cases w with
  | written cfg => exact .inr ⟨cfg, rfl, rfl⟩
  | unlisted => exact .inl rfl
  | readOnly => exact .inl rfl
  | badValue => exact .inl rfl

theorem causes_editSetRule {i : Instr} (b : State) (r : Request) : Causes i b (b.editSetRule r).state := by
  unfold State.editSetRule
  split
  · next cfg _ hb =>
    rcases b.editWritten_cases r.value .channel (cfg.write r.aux r.value) with h | ⟨cfg', hw, h⟩ <;> rw [h]
    · exact .refl i b
    · exact (Effect.setChannel cfg cfg' _ _ hb hw).causes
  · next cfg _ hb =>
    rcases b.editWritten_cases r.value .loop (cfg.write r.aux r.value) with h | ⟨cfg', hw, h⟩ <;> rw [h]
    · exact .refl i b
    · exact (Effect.setLoop cfg cfg' _ _ hb hw).causes
  all_goals exact .refl i b

theorem causes_openPhase1Rule {i : Instr} (b : State) (r : Request) : Causes i b (b.openPhase1Rule r).state := by
  unfold State.openPhase1Rule
  split
  · split <;> exact .of_content rfl
  · exact .of_content rfl

/-! ### The other happenings -/

theorem causes_coldReset (edge : ColdEdge) {s t : State} (h : execColdReset edge s = .next t) :
    Causes (.coldReset edge) s t := by
  have cold : ∀ t : State, t.content = s.coldCondition.content → Causes (.coldReset edge) s t :=
    fun t ht => (Effect.coldReset edge rfl).causes.congr rfl ht
  unfold execColdReset at h
  cases edge with
  | resetFalls | powerUpBegins =>
    cases h
    exact cold _ rfl
  | resetRises | powerUpEnds =>
    cases h
    split
    · exact cold _ rfl
    · exact .refl _ s

theorem causes_warmReset (edge : RestartEdge) {s t : State} (h : execWarmReset edge s = .next t) :
    Causes (.warmReset edge) s t := by
  unfold execWarmReset at h
  cases edge with
  | rises =>
    cases h
    exact .of_content rfl
  | falls heldLowNs =>
    cases h
    split
    · exact .refl _ s
    · split
      · exact .of_content rfl
      · unfold State.restartFalls
        dsimp only
        split
        · exact ⟨{ s with restartLow := true }, _, rfl, .warmReset, rfl⟩
        · split
          · exact ⟨{ s with restartLow := true }, _, rfl, .warmReset, rfl⟩
          · exact .of_content rfl

theorem causes_arrival {i : Instr} (s : State) (p : Port) (a : Arrival) : Causes i s (s.takeArrival p a) := by
  rcases s.takeArrival_cases p a with ⟨r, h, -⟩ | ⟨r, h, -⟩ | ⟨r, h, -⟩ | ⟨c, -, -, -, h⟩ <;> rw [h]
  · exact .of_content (by simp)
  · exact (TableEffect.linkUp p).causes.congr (s.content_withReceiver p r) rfl
  · exact (TableEffect.linkDown p).causes.congr (s.content_withReceiver p r) rfl
  · refine Causes.congr (s := s.goodTaken p) ?_ (by simp) rfl
    rcases (s.goodTaken p).dispatch_cases p c with
      h | ⟨-, -, h⟩ | ⟨d, -, -, h⟩ | ⟨d, -, h⟩ | ⟨-, -, h⟩ | ⟨-, h⟩ | ⟨k, -, -, h⟩ <;> rw [h]
    · exact .refl i _
    · rcases (s.goodTaken p).classify_cases c with ⟨-, h⟩ | ⟨n, hm, hv, -, h⟩ | ⟨-, hk, h⟩ <;> rw [h]
      · exact .of_content (by simp)
      · exact (TableEffect.hit n c hm hv).causes
      · exact (Effect.miss c hk).causes
    · exact .of_content (by simp)
    · exact .of_content (by simp)
    · exact .of_content rfl
    · exact .of_content rfl
    · exact (TableEffect.loop k _ .guarded).causes

theorem State.content_sendForwarded (s : State) : s.sendForwarded.content = s.content := by
  unfold State.sendForwarded; split <;> rfl

theorem causes_northSlot (s : State) : Causes .northSlot s s.fillNorthSlot := by
  have forwarded := Causes.of_content (i := .northSlot) s.content_sendForwarded
  unfold State.fillNorthSlot
  split
  · exact .of_content rfl
  · split
    · exact forwarded
    · unfold State.sendInserted
      split
      · exact .of_content rfl
      · split
        · next ha => exact (TableEffect.alarms _ (.announce ha)).causes.congr rfl rfl
        · exact forwarded

theorem causes_serveLoop (s : State) (k : Fin Config.loopCount) : Causes .southSlot s (s.serveLoop k) :=
  (TableEffect.loop k _ .served).causes.congr rfl rfl

theorem causes_southSlot (s : State) : Causes .southSlot s s.fillSouthSlot := by
  unfold State.fillSouthSlot
  split
  · exact .of_content rfl
  · split
    · unfold State.contended
      split
      · exact (causes_serveLoop _ _).congr rfl rfl
      · exact .of_content rfl
    · exact .of_content rfl
    · exact causes_serveLoop s _
    · exact .of_content rfl

theorem causes_resend (s : State) (seq : Nat) : Causes (.resendTimerExpiry seq) s (s.resendExpires seq) := by
  unfold State.resendExpires
  split
  · split
    · exact (TableEffect.abandon seq).causes
    · refine (TableEffect.alarms _ (.map (fun r => ?_) s.alarms)).causes
      split <;> exact ⟨rfl, rfl, rfl⟩
  · exact .refl _ s
  · exact .refl _ s

theorem causes_step (s : State) (k : Fin Config.loopCount) : Causes (.step k) s (s.takeStep k) := by
  unfold State.takeStep
  dsimp only
  split
  · exact (TableEffect.loop k _ .sourceStale).causes
  · exact (TableEffect.loop k _ .sourceStale).causes
  · exact (TableEffect.stepLoop k _).causes

/-! ### Every command and every step -/

/-- A happening makes its effect, or none while cold reset is held. -/
theorem Causes.happening {i : Instr} {s t : State} {effect : State → State} (h : happening s effect = .next t)
    (he : Causes i s (effect s)) : Causes i s t := by
  rcases happening_cases h with ⟨-, rfl⟩ | ⟨-, rfl⟩
  · exact .refl i _
  · exact he

/-- An expiry makes its effect on a timer that has reached its count, or none. -/
theorem Causes.expiry {i : Instr} {s t : State} {due : State → Bool} {effect : State → State}
    (h : expiry s due effect = .next t) (he : due s = true → Causes i s (effect s)) : Causes i s t := by
  rcases expiry_cases h with rfl | ⟨hd, rfl⟩
  · exact .refl i _
  · exact he hd

/-- Every command that completes has made one of the effects listed. -/
theorem exec_causes {i : Instr} {s t : State} (h : exec i s = .next t) : Causes i s t := by
  unfold exec at h
  cases i with
  | coldReset edge => exact causes_coldReset edge h
  | warmReset edge => exact causes_warmReset edge h
  | arrival p a => exact .happening h (causes_arrival s p a)
  | northSlot => exact .happening h (causes_northSlot s)
  | southSlot => exact .happening h (causes_southSlot s)
  | deadlineExpiry n =>
    exact .expiry h fun hd => (TableEffect.deadline n (Option.isSome_iff_exists.2 ⟨0, (reached_iff _).1 hd⟩)).causes
  | forwardRefreshExpiry n => exact .expiry h fun hd => (TableEffect.forwardRefresh n 0 (by simpa using hd)).causes
  | resendTimerExpiry seq => exact .happening h (causes_resend s seq)
  | step k => exact .expiry h fun _ => causes_step s k
  | stopTimerExpiry k => exact .expiry h fun _ => (TableEffect.loop k _ .stopExpired).causes
  | refreshTimerExpiry k => exact .expiry h fun _ => (TableEffect.loop k _ .refreshExpired).causes
  | proposalTimerExpiry => exact .expiry h fun _ => .of_content rfl
  | sessionTimerExpiry => exact .expiry h fun _ => Effect.emptyBuffer.causes.congr rfl rfl
  | read => exact .happening h (.takeAndServe (fun b _ _ => .refl _ b) s)
  | unknownRequest => exact .happening h (.takeAndServe (fun b _ _ => .refl _ b) s)
  | openPhase1 => exact .happening h (.takeAndServe (fun b r _ => causes_openPhase1Rule b r) s)
  | openPhase2 => exact .happening h (causes_openPhase2 s)
  | close => exact .happening h (causes_close s)
  | editLoad => exact .happening h (.takeAndServe (fun b r _ => causes_editLoadRule b r) s)
  | editSet => exact .happening h (.takeAndServe (fun b r _ => causes_editSetRule b r) s)
  | commit => exact .happening h (causes_commit s)
  | endOfScan =>
    refine .happening h ?_
    split
    · next c ha => exact causes_endScan (by simp [ha]) c
    · exact .refl _ s
  | removeChannel =>
    exact .happening h
      (.takeAndServe (fun b r hg => causes_removeRule (.inl rfl) (Gates.frozen_of_passed hg) r) s)
  | removeLoop =>
    exact .happening h
      (.takeAndServe (fun b r hg => causes_removeRule (.inr rfl) (Gates.frozen_of_passed hg) r) s)
  | setPart => exact .happening h (.takeAndServe (fun b r hg => causes_setPartRule (Gates.frozen_of_passed hg) r) s)
  | ackAlarm => exact .happening h (.takeAndServe (fun b r _ => causes_ack b r) s)
  | ackChannel => exact .happening h (.takeAndServe (fun b r _ => causes_ack b r) s)
  | manual => exact .happening h (.takeAndServe (fun b r _ => causes_manualRule b r) s)
  | manualRelease => exact .happening h (.takeAndServe (fun b r _ => causes_manualRule b r) s)
  | clearMiss => exact .happening h (.takeAndServe (fun b r _ => causes_clearRule b r) s)
  | clearPart => exact .happening h (.takeAndServe (fun b r _ => causes_clearRule b r) s)
  | restart => exact .happening h (.takeAndServe (fun b _ _ => Effect.warmReset.causes) s)
  | freeze => exact .happening h (.takeAndServe (fun b _ _ => Effect.freeze.causes) s)

/-- A law of the content holds after every step when every effect and every tick boundary keeps it. -/
theorem step_keeps {P : State → Prop} (hcontent : ∀ s t : State, t.content = s.content → P s → P t)
    (heffect : ∀ (i : Instr) (b u : State), Effect i b u → P b → P u) (htick : ∀ s, P s → P s.countBoundary)
    {s t : State} (hs : P s) (h : step s = .next t) : P t := by
  unfold step at h
  split at h
  · obtain ⟨b, u, hb, he, hu⟩ := exec_causes h
    exact hcontent u t hu (heffect _ b u he (hcontent s b hb hs))
  · cases h
    unfold State.idle
    split
    · exact hs
    · split
      · exact hcontent s _ rfl hs
      · exact hcontent s.countBoundary _ rfl (htick s hs)

end Sys2Proof.Machine

/-! ## The channel entries -/

namespace Sys2Proof.Machine

/-! ### Tables of which one function made every record -/

/-- The record of a number of a table of which one function made every record. -/
@[simp] theorem mapTable_fin {α β : Type} {m : Nat} (f : α → β) (v : Vector α m) (j : Fin m) :
    (mapTable f v)[j] = f v[j] :=
  getElem_mapTable f v j j.isLt

@[simp] theorem mapTable_id {α : Type} {m : Nat} (v : Vector α m) : mapTable id v = v :=
  Vector.ext fun i hi => getElem_mapTable id v i hi

/-! ### The evaluation of a sample -/

/-- The states that wait for a clear run. -/
def ChannelState.isTripped : ChannelState → Bool
  | .high | .low => true
  | .unseen | .normal | .highPend | .lowPend | .stale => false

theorem ChannelState.isTripped_iff (st : ChannelState) : st.isTripped = true ↔ st = .high ∨ st = .low := by
  cases st <;> decide

/-- What the evaluation of a sample can make of a dynamic part (R33 to R40). -/
inductive Evaluated (cfg : ChannelConfig) (d : ChannelDynamic) : ChannelDynamic → Prop
  | within : d.state.isTripped = false → Evaluated cfg d { d with state := .normal, run := 0 }
  | pending (side : Side) (run : Nat) : d.state.isTripped = false → 1 ≤ run → run < cfg.trips →
      Evaluated cfg d { d with state := side.pend, run := run }
  | tripped (side : Side) (seq : Option Nat) : d.state.isTripped = false →
      Evaluated cfg d { d with state := side.tripped, run := 0, acked := false, clearMet := false, tripSeq := seq }
  | counting (run : Nat) (met : Bool) : d.state.isTripped = true → run ≤ cfg.clears →
      Evaluated cfg d { d with run := run, clearMet := met }
  | returned : d.state.isTripped = true →
      Evaluated cfg d { d with state := .normal, run := 0, acked := false, clearMet := false, tripSeq := none }

/-- The part `t` is `s` with another dynamic part of entry `n`, and a queue that may have admitted alarms. -/
def State.DynOnly (s : State) (n : Fin Config.channelCount) (d : ChannelDynamic) (t : State) : Prop :=
  t = { s with channels := s.channels.set n { s.channels[n] with dyn := d }
               alarms := t.alarms, alertPin := t.alertPin, nextSeq := t.nextSeq }

theorem State.dynOnly_updateDyn (s : State) (n : Fin Config.channelCount) (f : ChannelDynamic → ChannelDynamic) :
    s.DynOnly n (f s.channels[n].dyn) (s.updateDyn n f) := rfl

/-- An admission touches no entry. -/
theorem State.DynOnly.takeAlarm {s t : State} {n : Fin Config.channelCount} {d : ChannelDynamic} (h : s.DynOnly n d t)
    (a : Alarm) : s.DynOnly n d (t.takeAlarm a).1 := by
  have frame := t.raise_frame a
  unfold State.raise at frame
  unfold State.DynOnly at h ⊢
  rw [frame, h]

/-- A change of the dynamic part after another one. -/
theorem State.DynOnly.updateDyn {s t : State} {n : Fin Config.channelCount} {d : ChannelDynamic} (h : s.DynOnly n d t)
    (f : ChannelDynamic → ChannelDynamic) : s.DynOnly n (f d) (t.updateDyn n f) := by
  unfold State.DynOnly at h ⊢
  rw [h]
  simp [State.updateDyn, State.updateChannel]

/-- A change of the dynamic part of a part whose queue has admitted an alarm. -/
theorem State.DynOnly.of_raise {s t : State} {n : Fin Config.channelCount} {d : ChannelDynamic} {a : Alarm}
    (h : (s.raise a).DynOnly n d t) : s.DynOnly n d t := by
  unfold State.DynOnly at h ⊢
  rw [s.raise_frame a] at h
  exact h

theorem State.dynOnly_trip (s : State) (n : Fin Config.channelCount) (state : ChannelState) (kind : AlarmKind) (v : Int) :
    ∃ seq, s.DynOnly n
      { s.channels[n].dyn with state := state, run := 0, acked := false, clearMet := false, tripSeq := seq }
      (s.trip n state kind v) :=
  ⟨_, ((s.dynOnly_updateDyn n
      (fun d => { d with state := state, run := 0, acked := false, clearMet := false })).takeAlarm _).updateDyn
      (fun d => { d with tripSeq := _ })⟩

theorem State.evaluated_confirmRun {s : State} {n : Fin Config.channelCount} (side : Side) {run : Nat} (v : Int)
    (ht : s.channels[n].dyn.state.isTripped = false) (hr : 1 ≤ run) :
    ∃ d, Evaluated s.channels[n].cfg s.channels[n].dyn d ∧ s.DynOnly n d (s.confirmRun n side run v) := by
  unfold State.confirmRun
  split
  · obtain ⟨seq, h⟩ := s.dynOnly_trip n side.tripped side.kind v
    exact ⟨_, .tripped side seq ht, h⟩
  · exact ⟨_, .pending side run ht hr (by omega), s.dynOnly_updateDyn n _⟩

theorem State.evaluated_withinLimits {s : State} {n : Fin Config.channelCount}
    (ht : s.channels[n].dyn.state.isTripped = false) :
    ∃ d, Evaluated s.channels[n].cfg s.channels[n].dyn d ∧ s.DynOnly n d (s.withinLimits n) :=
  ⟨_, .within ht, s.dynOnly_updateDyn n _⟩

theorem State.evaluated_evalNormal {s : State} {n : Fin Config.channelCount} (v : Int)
    (ht : s.channels[n].dyn.state.isTripped = false) :
    ∃ d, Evaluated s.channels[n].cfg s.channels[n].dyn d ∧ s.DynOnly n d (s.evalNormal n v) := by
  unfold State.evalNormal
  split
  · exact State.evaluated_confirmRun _ v ht (Nat.le_refl 1)
  · exact State.evaluated_withinLimits ht

theorem State.evaluated_evalPend {s : State} {n : Fin Config.channelCount} (side : Side) (v : Int)
    (ht : s.channels[n].dyn.state.isTripped = false) :
    ∃ d, Evaluated s.channels[n].cfg s.channels[n].dyn d ∧ s.DynOnly n d (s.evalPend n side v) := by
  unfold State.evalPend
  split
  · split
    · exact State.evaluated_confirmRun _ v ht (Nat.le_add_left ..)
    · exact State.evaluated_confirmRun _ v ht (Nat.le_refl 1)
  · exact State.evaluated_withinLimits ht

theorem State.evaluated_evalTripped {s : State} {n : Fin Config.channelCount} (side : Side) (v : Int)
    (ht : s.channels[n].dyn.state.isTripped = true) :
    ∃ d, Evaluated s.channels[n].cfg s.channels[n].dyn d ∧ s.DynOnly n d (s.evalTripped n side v) := by
  have back : ∀ run, ∃ d, Evaluated s.channels[n].cfg s.channels[n].dyn d
      ∧ s.DynOnly n d ((s.updateDyn n (fun d => { d with run := run })).returnToNormal n v) :=
    fun run => ⟨_, .returned ht, ((s.dynOnly_updateDyn n (fun d => { d with run := run })).updateDyn _).takeAlarm _⟩
  have counted : min (s.channels[n].dyn.run + 1) s.channels[n].cfg.clears ≤ s.channels[n].cfg.clears := Nat.min_le_right ..
  unfold State.evalTripped
  split
  · dsimp only
    split
    · unfold State.confirmClear
      split
      · exact back _
      · exact back _
      · exact ⟨_, .counting _ _ ht counted, (s.dynOnly_updateDyn n _).updateDyn _⟩
    · exact ⟨_, .counting _ _ ht counted, s.dynOnly_updateDyn n _⟩
  · exact ⟨_, .counting _ _ ht (Nat.zero_le _), s.dynOnly_updateDyn n _⟩

/-- The evaluation of a sample changes the dynamic part of its entry and the queue only (R33). -/
theorem State.evaluated_evalSample (s : State) (n : Fin Config.channelCount) (v : Int) :
    ∃ d, Evaluated s.channels[n].cfg s.channels[n].dyn d ∧ s.DynOnly n d (s.evalSample n v) := by
  unfold State.evalSample
  split
  · next h => exact State.evaluated_evalNormal v (by rw [h]; rfl)
  · next h => exact State.evaluated_evalNormal v (by rw [h]; rfl)
  · next h =>
    have resumed : (s.resumed n v).channels = s.channels := by simp [State.resumed]
    have ht : (s.resumed n v).channels[n].dyn.state.isTripped = false := by rw [resumed, h]; rfl
    obtain ⟨d, hd, ho⟩ := State.evaluated_evalNormal v ht
    rw [resumed] at hd
    exact ⟨d, hd, ho.of_raise⟩
  · next h => exact State.evaluated_evalPend .high v (by rw [h]; rfl)
  · next h => exact State.evaluated_evalPend .low v (by rw [h]; rfl)
  · next h => exact State.evaluated_evalTripped .high v (by rw [h]; rfl)
  · next h => exact State.evaluated_evalTripped .low v (by rw [h]; rfl)

/-- No evaluation changes what the sample recorded or what was forwarded. -/
theorem Evaluated.frame {cfg : ChannelConfig} {d d' : ChannelDynamic} (h : Evaluated cfg d d') :
    d'.last = d.last ∧ d'.lastRaw = d.lastRaw ∧ d'.sent = d.sent ∧ d'.forward = d.forward := by
  cases h <;> exact ⟨rfl, rfl, rfl, rfl⟩

/-! ### The forward decision and the taking of a hit -/

/-- What the forward decision can make of a dynamic part (R20, R22 to R24). -/
inductive Forwarded (cfg : ChannelConfig) (v : Int) (d : ChannelDynamic) : ChannelDynamic → Prop
  | kept : cfg.policy ≠ .conditioned → (cfg.policy = .onChange → d.sent.isSome) → Forwarded cfg v d d
  | conditioned : cfg.policy = .conditioned → Forwarded cfg v d { d with sent := some v }
  | onChange : cfg.policy = .onChange → Forwarded cfg v d { d with sent := some v, forward := forwardStart cfg.refresh }

/-- The forward decision changes the dynamic part of its entry and the north forward FIFO only (R20). -/
theorem State.forwarded_forward (s : State) (n : Fin Config.channelCount) (prior : ChannelState) (v : Int) (c : Cell) :
    ∃ d fifo lost, Forwarded s.channels[n].cfg v s.channels[n].dyn d
      ∧ s.forward n prior v c =
        { s with channels := s.channels.set n { s.channels[n] with dyn := d }, northFifo := fifo, northOverflow := lost } := by
  have same : s.channels.set n { s.channels[n] with dyn := s.channels[n].dyn } = s.channels := set_table_self _ _
  unfold State.forward
  dsimp only
  split
  · next h =>
    refine ⟨_, (s.handNorth c).northFifo, (s.handNorth c).northOverflow, .kept (by rw [h]; decide) (by rw [h]; nofun), ?_⟩
    rw [same]
    exact s.handNorth_frame _
  · next h => exact ⟨_, _, _, .conditioned h, State.handNorth_frame ..⟩
  · next h =>
    split
    · exact ⟨_, _, _, .onChange h, State.handNorth_frame ..⟩
    · next hd =>
      refine ⟨_, _, _, .kept (by rw [h]; decide) (fun _ => ?_), by rw [same]⟩
      unfold forwardDue at hd
      split at hd <;> simp_all
  · next h => exact ⟨_, _, _, .kept (by rw [h]; decide) (by rw [h]; nofun), by rw [same]⟩

theorem Forwarded.frame {cfg : ChannelConfig} {v : Int} {d d' : ChannelDynamic} (h : Forwarded cfg v d d') :
    d'.state = d.state ∧ d'.run = d.run ∧ d'.last = d.last ∧ d'.lastRaw = d.lastRaw ∧ d'.acked = d.acked
      ∧ d'.clearMet = d.clearMet ∧ d'.tripSeq = d.tripSeq := by
  cases h <;> exact ⟨rfl, rfl, rfl, rfl, rfl, rfl, rfl⟩

/-- The deadline of an entry after a taking (R10). -/
def Channel.restartedDeadline (e : Channel) : Option Nat := if 0 < e.cfg.silence then some e.cfg.silence else e.deadline

/-- The deadline alone is restarted. -/
theorem Channel.restartDeadline_eq (e : Channel) : e.restartDeadline = { e with deadline := e.restartedDeadline } := by
  unfold Channel.restartDeadline Channel.restartedDeadline
  split <;> rfl

/-- A dynamic part with the sample recorded (R10, step 1). -/
def ChannelDynamic.record (d : ChannelDynamic) (v raw : Int) : ChannelDynamic := { d with last := some v, lastRaw := some raw }

/-- The taking of a hit: what becomes of its entry, and the fields that can change besides (R10, R19). -/
theorem State.takeHit_spec (s : State) (n : Fin Config.channelCount) (c : Cell) :
    ∃ d d' q pin seq fifo lost,
      Evaluated s.channels[n].cfg (s.channels[n].dyn.record (s.channels[n].cfg.condition c.value) c.value) d
      ∧ Forwarded s.channels[n].cfg (s.channels[n].cfg.condition c.value) d d'
      ∧ s.takeHit n c =
        { s with
          channels := s.channels.set n { s.channels[n] with dyn := d', deadline := s.channels[n].restartedDeadline }
          loops := mapTable (fun l => if l.cfg.source = n then l.sourceSample s.settings.mode else l) s.loops
          alarms := q, alertPin := pin, nextSeq := seq, northFifo := fifo, northOverflow := lost } := by
  unfold State.takeHit
  dsimp only
  generalize s.channels[n].cfg.condition c.value = v
  generalize hset : s.updateDyn n (fun d => { d with last := some v, lastRaw := some c.value }) = set
  have hentry : set.channels[n] = { s.channels[n] with dyn := s.channels[n].dyn.record v c.value } := by
    subst hset
    simp [ChannelDynamic.record]
  obtain ⟨d, hd, hsample⟩ := set.evaluated_evalSample n v
  unfold State.DynOnly at hsample
  generalize (set.evalSample n v).alarms = q, (set.evalSample n v).alertPin = pin,
    (set.evalSample n v).nextSeq = seq at hsample
  generalize hstep : (set.evaluate n v).updateChannel n Channel.restartDeadline = restarted
  have hrestarted : restarted =
      { s with
        channels := s.channels.set n { s.channels[n] with dyn := d, deadline := s.channels[n].restartedDeadline }
        loops := mapTable (fun l => if l.cfg.source = n then l.sourceSample s.settings.mode else l) s.loops
        alarms := q, alertPin := pin, nextSeq := seq } := by
    rw [← hstep, State.evaluate, hsample, ← hset]
    simp [State.sourceSampleEvent, State.mapLoops, State.updateChannel, State.updateDyn, Channel.restartDeadline_eq,
      Channel.restartedDeadline]
  obtain ⟨d', fifo, lost, hd', hforward⟩ := restarted.forwarded_forward n s.channels[n].dyn.state v c
  refine ⟨d, d', q, pin, seq, fifo, lost, ?_, ?_, ?_⟩
  · rw [hentry] at hd
    exact hd
  · rw [hrestarted] at hd'
    simpa using hd'
  · rw [hforward, hrestarted]
    simp

end Sys2Proof.Machine

/-! ### What the part's running does to an entry -/

namespace Sys2Proof.Machine

/-- An entry that the part's running has moved: its static part stands, its laws and the ranges of its dynamic fields are kept,
the conditioner mode going from `mode` to `mode'`. -/
structure Channel.Moved (mode mode' : Mode) (e e' : Channel) : Prop where
  valid : e'.valid = e.valid
  cfg : e'.cfg = e.cfg
  revision : e'.revision = e.revision
  sound : e.Sound mode → e'.Sound mode'
  range : e.cfg.InRange → e.dyn.InRange → e'.dyn.InRange

theorem Channel.Moved.refl (mode : Mode) (e : Channel) : e.Moved mode mode e := ⟨rfl, rfl, rfl, id, fun _ h => h⟩

/-- A channel that does not wait for a clear run has nothing acknowledged, met or named (R3, R32). -/
theorem ChannelDynamic.Sound.of_untripped {d : ChannelDynamic} {cfg : ChannelConfig} (h : d.Sound cfg)
    (ht : d.state.isTripped = false) : d.acked = false ∧ d.clearMet = false ∧ d.tripSeq = none := by
  obtain ⟨-, hstate⟩ := h
  cases hs : d.state <;> simp_all [ChannelState.isTripped]

/-- A channel that waits for a clear run has counted no more than CLEARS, and has taken a sample (R32, R38). -/
theorem ChannelDynamic.Sound.of_tripped {d : ChannelDynamic} {cfg : ChannelConfig} (h : d.Sound cfg)
    (ht : d.state.isTripped = true) : d.run ≤ cfg.clears ∧ d.last.isSome := by
  obtain ⟨-, hstate⟩ := h
  cases hs : d.state <;> simp_all [ChannelState.isTripped]

/-- A tripped dynamic part is sound as far as RUN, LAST and LAST_RAW are. -/
theorem ChannelDynamic.sound_of_tripped {d : ChannelDynamic} {cfg : ChannelConfig} (hlast : d.last.isSome ↔ d.lastRaw.isSome)
    (ht : d.state.isTripped = true) (hr : d.run ≤ cfg.clears) (hl : d.last.isSome) : d.Sound cfg := by
  refine ⟨hlast, ?_⟩
  cases hs : d.state <;> simp_all [ChannelState.isTripped]

/-- An entry whose dynamic part is cleared is UNSEEN, with nothing forwarded. -/
theorem ChannelDynamic.sound_cleared (cfg : ChannelConfig) : ChannelDynamic.cleared.Sound cfg :=
  ⟨Iff.rfl, rfl, rfl, rfl, rfl, rfl⟩

theorem ChannelDynamic.inRange_cleared : ChannelDynamic.cleared.InRange :=
  ⟨Nat.zero_le _, nofun, nofun, nofun⟩

/-- The evaluation of a recorded sample leaves a sound dynamic part, out of STALE (R33 to R40). -/
theorem Evaluated.sound {cfg : ChannelConfig} {d d' : ChannelDynamic} {v raw : Int} (h : Evaluated cfg (d.record v raw) d')
    (hd : d.Sound cfg) : d'.Sound cfg ∧ d'.state ≠ .stale := by
  cases h with
  | within ht =>
    obtain ⟨hacked, hmet, hseq⟩ := hd.of_untripped ht
    exact ⟨⟨by simp [ChannelDynamic.record], rfl, hacked, hmet, hseq, rfl⟩, nofun⟩
  | pending side run ht hr htrips =>
    obtain ⟨hacked, hmet, hseq⟩ := hd.of_untripped ht
    refine ⟨⟨by simp [ChannelDynamic.record], ?_⟩, by cases side <;> nofun⟩
    cases side <;> exact ⟨hr, htrips, hacked, hmet, hseq, rfl⟩
  | tripped side seq ht =>
    refine ⟨⟨by simp [ChannelDynamic.record], ?_⟩, by cases side <;> nofun⟩
    cases side <;> exact ⟨Nat.zero_le _, rfl⟩
  | counting run met ht hr =>
    refine ⟨ChannelDynamic.sound_of_tripped (by simp [ChannelDynamic.record]) ht hr rfl, fun hs => ?_⟩
    rw [hs] at ht
    cases ht
  | returned ht => exact ⟨⟨by simp [ChannelDynamic.record], rfl, rfl, rfl, rfl, rfl⟩, nofun⟩

/-- RUN stays within TRIPS and CLEARS, so at most 8 (R1, R36, R38). -/
theorem Evaluated.run_le {cfg : ChannelConfig} {d d' : ChannelDynamic} (h : Evaluated cfg d d') (hcfg : cfg.InRange) :
    d'.run ≤ 8 := by
  obtain ⟨-, -, -, -, -, -, -, -, htrips, -, hclears, -⟩ := hcfg
  cases h with
  | pending side run _ _ hlt => exact show run ≤ 8 by omega
  | counting run met _ hle => exact show run ≤ 8 by omega
  | within | tripped | returned => exact Nat.zero_le 8

/-- The forward decision does not touch what the laws of STATE look at. -/
theorem Forwarded.sound {cfg : ChannelConfig} {v : Int} {d d' : ChannelDynamic} (h : Forwarded cfg v d d')
    (hd : d.Sound cfg) : d'.Sound cfg := by
  cases h <;> exact hd

theorem forwardStart_eq_idle {refresh : Nat} : forwardStart refresh = .idle ↔ refresh = 0 := by
  unfold forwardStart
  split <;> simp <;> omega

/-- The forward decision keeps the law of the forward refresh timer in ACTIVE mode (R24). -/
theorem Forwarded.forwardLaw {v : Int} {d d' : ChannelDynamic} {e : Channel} {deadline : Option Nat}
    (h : Forwarded e.cfg v d d') (hd : ({ e with dyn := d, deadline := deadline } : Channel).ForwardLaw .active)
    (hv : e.valid = true) : ({ e with dyn := d', deadline := deadline } : Channel).ForwardLaw .active := by
  obtain ⟨hout, hrun, hin⟩ := hd
  cases h with
  | kept => exact ⟨hout, hrun, hin⟩
  | conditioned hp =>
    refine ⟨fun hf => ?_, fun _ _ => rfl, fun _ honChange => ?_⟩
    · obtain ⟨-, honChange, hr, -⟩ := hout hf
      exact ⟨hv, honChange, hr, rfl⟩
    · exact absurd (hp.symm.trans honChange) (by decide)
  | onChange hp =>
    refine ⟨fun hf => ⟨hv, hp, ?_, rfl⟩, fun _ _ => rfl, fun _ _ hr _ _ hf => ?_⟩
    · have : ¬e.cfg.refresh = 0 := fun hr => hf (forwardStart_eq_idle.2 hr)
      exact Nat.pos_of_ne_zero this
    · exact absurd (forwardStart_eq_idle.1 hf) (Nat.pos_iff_ne_zero.1 hr)

/-- The taking of a hit moves its entry (R10). -/
theorem Channel.moved_sampled {e : Channel} {v raw : Int} {d d' : ChannelDynamic} (hv : e.valid = true)
    (hd : Evaluated e.cfg (e.dyn.record v raw) d) (hd' : Forwarded e.cfg v d d') (hword : InWord v) (hraw : InWord raw) :
    e.Moved .active .active { e with dyn := d', deadline := e.restartedDeadline } := by
  obtain ⟨hlast, hlastRaw, hsent, hforward⟩ := hd.frame
  refine ⟨rfl, rfl, rfl, fun h => ?_, fun hcfg hrange => ?_⟩
  · obtain ⟨-, hinstalled, hdyn, hrev, hdead, hlive, hlaw⟩ := h
    obtain ⟨hsound, hstale⟩ := hd.sound hdyn
    refine ⟨by simp [hv], hinstalled, hd'.sound hsound, hrev, fun hr => ?_, fun _ hs _ _ => ?_, hd'.forwardLaw ?_ hv⟩
    · simp only [Channel.restartedDeadline] at hr
      split at hr
      · exact ⟨hv, by assumption, rfl⟩
      · exact hdead hr
    · simp [Channel.restartedDeadline, hs]
    · obtain ⟨hout, hrun, hin⟩ := hlaw
      simp only [ChannelDynamic.record] at hsent hforward
      exact ⟨by rw [hforward, hsent]; exact hout, by rw [hforward]; exact hrun, by rw [hforward, hsent]; exact hin⟩
  · obtain ⟨-, -, -, hsentRange⟩ := hrange
    obtain ⟨-, hrun, hlast', hlastRaw', -⟩ := hd'.frame
    refine ⟨hrun ▸ hd.run_le hcfg, fun w hw => ?_, fun w hw => ?_, fun w hw => ?_⟩
    · rw [hlast', hlast] at hw
      cases hw
      exact hword
    · rw [hlastRaw', hlastRaw] at hw
      cases hw
      exact hraw
    · cases hd' with
      | kept => exact hsentRange w (hsent ▸ hw)
      | conditioned | onChange =>
        cases hw
        exact hword

/-- A dynamic part gone STALE (R45). -/
def ChannelDynamic.goneStale (d : ChannelDynamic) : ChannelDynamic :=
  { d with state := .stale, run := 0, acked := false, clearMet := false, tripSeq := none }

/-- An entry after the expiry of its deadline (R45). -/
def Channel.deadlineExpired (e : Channel) : Channel :=
  { e with deadline := none, dyn := if e.dyn.state = .stale then e.dyn else e.dyn.goneStale }

theorem Channel.moved_deadlineExpired {mode : Mode} {e : Channel} (hd : e.deadline.isSome) :
    e.Moved mode mode e.deadlineExpired := by
  have stale : e.deadlineExpired.dyn.state = .stale := by
    unfold Channel.deadlineExpired
    dsimp only
    split
    · assumption
    · rfl
  refine ⟨rfl, rfl, rfl, fun h => ?_, fun _ hrange => ?_⟩
  · obtain ⟨-, hinstalled, hdyn, hrev, hdead, -, hout, hrun, hin⟩ := h
    have hv := (hdead hd).1
    have same : e.deadlineExpired.dyn.forward = e.dyn.forward ∧ e.deadlineExpired.dyn.sent = e.dyn.sent := by
      unfold Channel.deadlineExpired
      dsimp only
      split <;> exact ⟨rfl, rfl⟩
    refine ⟨fun hi => by simp [Channel.deadlineExpired, hv] at hi, hinstalled, ?_, hrev, nofun,
      fun _ _ _ hs => absurd stale hs, ?_, ?_, ?_⟩
    · unfold Channel.deadlineExpired
      dsimp only
      split
      · exact hdyn
      · exact ⟨hdyn.1, rfl, rfl, rfl, rfl⟩
    · rw [same.1, same.2]; exact hout
    · rw [same.1]; exact hrun
    · rw [same.1, same.2]; exact hin
  · unfold Channel.deadlineExpired
    dsimp only
    split
    · exact hrange
    · exact ⟨Nat.zero_le _, hrange.2⟩

/-- An entry whose forward refresh timer has expired (R24). -/
theorem Channel.moved_forwardExpired {mode : Mode} {e : Channel} {ticks : Nat} (hf : e.dyn.forward = .running ticks) :
    e.Moved mode mode { e with dyn := { e.dyn with forward := .expired } } := by
  refine ⟨rfl, rfl, rfl, fun h => ?_, fun _ hrange => hrange⟩
  obtain ⟨hcleared, hinstalled, hdyn, hrev, hdead, hlive, hout, hrun, hin⟩ := h
  obtain ⟨hv, hp, hr, hs⟩ := hout (by simp [hf])
  exact ⟨by simp [hv], hinstalled, hdyn, hrev, hdead, hlive, fun _ => ⟨hv, hp, hr, hs⟩, nofun, fun _ _ _ _ _ => nofun⟩

/-- An entry whose TRIP_SEQ is forgotten stays sound: out of HIGH and LOW it had none (R44). -/
theorem Channel.moved_forgetTrip (mode : Mode) (seq : Nat) (e : Channel) : e.Moved mode mode (e.forgetTrip seq) := by
  unfold Channel.forgetTrip
  split
  · next hseq =>
    refine ⟨rfl, rfl, rfl, fun h => ?_, fun _ hrange => hrange⟩
    obtain ⟨hcleared, hinstalled, ⟨hlast, hstate⟩, hrev, hdead, hlive, hlaw⟩ := h
    refine ⟨fun hi => ?_, hinstalled, ⟨hlast, ?_⟩, hrev, hdead, hlive, hlaw⟩
    · rw [hcleared hi] at hseq
      cases hseq
    · dsimp only
      cases hs : e.dyn.state <;> simp_all
  · exact .refl mode e

/-- A dynamic part that has returned to NORMAL (R40). -/
def ChannelDynamic.normalAgain (d : ChannelDynamic) : ChannelDynamic :=
  { d with state := .normal, run := 0, acked := false, clearMet := false, tripSeq := none }

/-- A dynamic part after the channel side of an acknowledgement (R41, R42). -/
def ChannelDynamic.acknowledged (d : ChannelDynamic) : ChannelDynamic :=
  if d.clearMet then d.normalAgain else { d with acked := true, tripSeq := none }

/-- A dynamic part that waits for a clear run, or has a TRIP_SEQ, stays sound when it is acknowledged (R41, R42). -/
theorem Channel.moved_acknowledged {mode : Mode} {e : Channel}
    (ht : e.dyn.state.isTripped = true ∨ ∃ seq, e.dyn.tripSeq = some seq) :
    e.Moved mode mode { e with dyn := e.dyn.acknowledged } := by
  refine ⟨rfl, rfl, rfl, fun h => ?_, fun _ hrange => ?_⟩
  · obtain ⟨hcleared, hinstalled, hdyn, hrev, hdead, hlive, hlaw⟩ := h
    have tripped : e.dyn.state.isTripped = true := by
      rcases ht with ht | ⟨seq, hseq⟩
      · exact ht
      · cases hs : e.dyn.state.isTripped
        · rw [(hdyn.of_untripped hs).2.2] at hseq
          cases hseq
        · rfl
    obtain ⟨hrun, hlast⟩ := hdyn.of_tripped tripped
    have live : e.dyn.state ≠ .stale := by rintro hs; rw [hs] at tripped; cases tripped
    have hvalid : ¬e.valid = false := by
      intro hi
      rw [hcleared hi] at tripped
      cases tripped
    unfold ChannelDynamic.acknowledged
    split
    · exact ⟨fun hi => absurd hi hvalid, hinstalled, ⟨hdyn.1, rfl, rfl, rfl, rfl, hlast⟩, hrev, hdead,
        fun hv hs hm _ => hlive hv hs hm live, hlaw⟩
    · exact ⟨fun hi => absurd hi hvalid, hinstalled, ChannelDynamic.sound_of_tripped hdyn.1 tripped hrun hlast, hrev, hdead,
        hlive, hlaw⟩
  · unfold ChannelDynamic.acknowledged
    split
    · exact ⟨Nat.zero_le _, hrange.2⟩
    · exact hrange

/-- The switch to PASS stops the deadline, and the forward refresh timer if it runs (R11, R25). -/
theorem Channel.moved_toPass (mode : Mode) (e : Channel) : e.Moved mode .pass e.toPass := by
  have stopped : (∀ ticks, e.dyn.forward ≠ .running ticks) → e.Moved mode .pass e.stopDeadline := by
    refine fun hf => ⟨rfl, rfl, rfl, fun h => ?_, fun _ hrange => hrange⟩
    obtain ⟨hcleared, hinstalled, hdyn, hrev, -, -, hout, -, -⟩ := h
    exact ⟨hcleared, hinstalled, hdyn, hrev, nofun, nofun, hout, fun ticks ht => absurd ht (hf ticks), nofun⟩
  unfold Channel.toPass
  split
  · refine ⟨rfl, rfl, rfl, fun h => ?_, fun _ hrange => hrange⟩
    obtain ⟨hcleared, hinstalled, hdyn, hrev, -, -, -⟩ := h
    refine ⟨fun hi => ?_, hinstalled, hdyn, hrev, nofun, nofun, fun hf => absurd rfl hf, nofun, nofun⟩
    dsimp only
    rw [hcleared hi]
    rfl
  · next hf => exact stopped (by rw [hf]; nofun)
  · next hf => exact stopped (by rw [hf]; nofun)

theorem Channel.forwardStarts_iff (e : Channel) :
    e.forwardStarts = true ↔ e.valid = true ∧ e.cfg.policy = .onChange ∧ 0 < e.cfg.refresh ∧ e.dyn.sent.isSome
      ∧ e.dyn.forward = .idle := by
  simp [Channel.forwardStarts, and_assoc]

/-- The switch to ACTIVE, as one update of the two timers. -/
theorem Channel.toActive_eq (e : Channel) : e.toActive =
    { e with deadline := if e.valid = true ∧ 0 < e.cfg.silence then some e.cfg.silence else e.deadline
             dyn := { e.dyn with forward := if e.forwardStarts then .running e.cfg.refresh else e.dyn.forward } } := by
  unfold Channel.toActive
  by_cases hd : e.valid = true ∧ 0 < e.cfg.silence <;> by_cases hf : e.forwardStarts = true <;>
    simp only [Bool.and_eq_true, decide_eq_true_eq, hd, hf, and_self, if_true, if_false, Bool.false_eq_true]

/-- The switch to ACTIVE starts the deadline and the forward refresh timer where they run (R11, R25). -/
theorem Channel.moved_toActive (e : Channel) : e.Moved .pass .active e.toActive := by
  rw [Channel.toActive_eq]
  refine ⟨rfl, rfl, rfl, fun h => ?_, fun _ hrange => hrange⟩
  obtain ⟨hcleared, hinstalled, hdyn, hrev, hdead, -, hout, hrun, -⟩ := h
  refine ⟨fun hi => ?_, hinstalled, hdyn, hrev, fun hr => ?_, fun hv hs _ _ => ?_, fun hf => ?_, fun _ _ => rfl,
    fun hv hp hr hs _ hf => ?_⟩
  · have idle : e.forwardStarts = false := by simp [Channel.forwardStarts, show e.valid = false from hi]
    simpa [idle] using hcleared hi
  · dsimp only at hr
    split at hr
    · next hc => exact ⟨hc.1, hc.2, rfl⟩
    · exact nomatch (hdead hr).2.2
  · simp [show e.valid = true from hv, show 0 < e.cfg.silence from hs]
  · dsimp only at hf
    split at hf
    · next hstarts =>
      obtain ⟨hv, hp, hr, hs, -⟩ := e.forwardStarts_iff.1 hstarts
      exact ⟨hv, hp, hr, hs⟩
    · exact hout hf
  · dsimp only at hf
    split at hf
    · cases hf
    · next hstarts => exact hstarts (e.forwardStarts_iff.2 ⟨hv, hp, hr, hs, hf⟩)

/-- The deadline is started exactly in ACTIVE mode with SILENCE above 0 (R4). -/
theorem deadlineStart_isSome (mode : Mode) (cfg : ChannelConfig) :
    (deadlineStart mode cfg).isSome ↔ 0 < cfg.silence ∧ mode = .active := by
  unfold deadlineStart startUnlessZero
  cases mode with
  | pass => simp
  | active => by_cases h : 0 < cfg.silence <;> simp [h]

/-- A valid entry with a cleared dynamic part and its deadline started where it runs is sound (R3, R4). -/
theorem Channel.sound_cleared {mode : Mode} {cfg : ChannelConfig} {revision : Nat} (hcfg : cfg.Installed)
    (hrev : revision < 256) :
    ({ valid := true, cfg := cfg, revision := revision, dyn := .cleared, deadline := deadlineStart mode cfg } : Channel).Sound
      mode := by
  refine ⟨nofun, fun _ => hcfg, ChannelDynamic.sound_cleared cfg, hrev,
    fun hr => ⟨rfl, (deadlineStart_isSome mode cfg).1 hr⟩,
    fun _ hs hm _ => (deadlineStart_isSome mode cfg).2 ⟨hs, hm⟩, ?_, nofun, nofun⟩
  exact fun hf => absurd rfl hf

/-- A warm reset clears a valid entry and starts its deadline where it runs (R52). -/
theorem Channel.moved_warmReset (mode : Mode) (e : Channel) : e.Moved mode mode (e.warmReset mode) := by
  unfold Channel.warmReset
  split
  · next hv =>
    refine ⟨rfl, rfl, rfl, fun h => ?_, fun _ _ => ChannelDynamic.inRange_cleared⟩
    obtain ⟨-, hinstalled, -, hrev, -⟩ := h
    have := Channel.sound_cleared (mode := mode) (hinstalled hv) hrev
    rw [← hv] at this
    exact this
  · exact .refl mode e

theorem countTicks_isSome (timer : Option Nat) : (countTicks timer).isSome = timer.isSome := by
  cases timer <;> rfl

theorem ForwardTimer.count_eq_idle (timer : ForwardTimer) : timer.count = .idle ↔ timer = .idle := by
  cases timer <;> simp [ForwardTimer.count]

theorem ForwardTimer.running_of_count {timer : ForwardTimer} {ticks : Nat} (h : timer.count = .running ticks) :
    ∃ before, timer = .running before := by
  cases timer with
  | running before => exact ⟨before, rfl⟩
  | idle | expired => cases h

/-- A tick boundary counts the timers of an entry that run (R177). -/
theorem Channel.moved_count (mode : Mode) (e : Channel) : e.Moved mode mode e.count := by
  refine ⟨rfl, rfl, rfl, fun h => ?_, fun _ hrange => hrange⟩
  obtain ⟨hcleared, hinstalled, hdyn, hrev, hdead, hlive, hout, hrun, hin⟩ := h
  unfold Channel.count
  refine ⟨fun hi => ?_, hinstalled, hdyn, hrev, ?_, ?_, ?_, fun ticks ht => ?_, ?_⟩
  · dsimp only
    rw [hcleared hi]
    rfl
  · rw [countTicks_isSome]
    exact hdead
  · rw [countTicks_isSome]
    exact hlive
  · exact fun hf => hout fun hi => hf ((ForwardTimer.count_eq_idle _).2 hi)
  · obtain ⟨before, hb⟩ := ForwardTimer.running_of_count ht
    exact hrun before hb
  · exact fun hv hp hr hs hm hf => hin hv hp hr hs hm ((ForwardTimer.count_eq_idle _).1 hf)

/-! ### Installs, REMOVE and cold reset -/

theorem wrap8_lt (n : Nat) : wrap8 n < 256 := Nat.mod_lt _ (by decide)

/-- A fresh install leaves a sound entry (R171). -/
theorem Channel.sound_freshInstall (mode : Mode) {cfg : ChannelConfig} (hcfg : cfg.Installed) (e : Channel) :
    (e.freshInstall mode cfg).Sound mode :=
  Channel.sound_cleared hcfg (wrap8_lt _)

/-- The dynamic part after a re-install, sound under the new static part (R50). -/
theorem ChannelDynamic.sound_reinstalled {d : ChannelDynamic} {cfg : ChannelConfig} (mode : Mode) (cfg' : ChannelConfig)
    (h : d.Sound cfg) : (d.reinstalled mode cfg').Sound cfg' := by
  obtain ⟨hlast, hstate⟩ := h
  unfold ChannelDynamic.reinstalled
  cases hs : d.state <;> simp only [hs] at hstate
  case unseen | normal | stale => exact ⟨hlast, by simpa [hs] using hstate.2⟩
  case highPend | lowPend =>
    obtain ⟨-, -, hacked, hmet, hseq, hl⟩ := hstate
    exact ⟨hlast, rfl, hacked, hmet, hseq, hl⟩
  case high | low => exact ⟨hlast, by simpa [hs] using hstate.2⟩

theorem ChannelDynamic.reinstalled_forward (d : ChannelDynamic) (mode : Mode) (cfg : ChannelConfig) :
    (d.reinstalled mode cfg).forward = d.forwardAfter mode cfg ∧ (d.reinstalled mode cfg).sent = d.sent := by
  unfold ChannelDynamic.reinstalled
  dsimp only
  split <;> exact ⟨rfl, rfl⟩

theorem ChannelDynamic.forwardAfter_ne_idle {d : ChannelDynamic} {mode : Mode} {cfg : ChannelConfig} :
    d.forwardAfter mode cfg ≠ .idle ↔ cfg.policy = .onChange ∧ 0 < cfg.refresh ∧ d.sent.isSome ∧ mode = .active := by
  unfold ChannelDynamic.forwardAfter
  split <;> simp_all

/-- A re-install of a valid entry leaves a sound entry (R170, R26, R50). -/
theorem Channel.sound_reinstall {mode : Mode} {cfg : ChannelConfig} {e : Channel} (hcfg : cfg.Installed) (hv : e.valid = true)
    (h : e.Sound mode) : (e.reinstall mode cfg).Sound mode := by
  obtain ⟨-, -, hdyn, -, -, -, -⟩ := h
  obtain ⟨hforward, hsent⟩ := e.dyn.reinstalled_forward mode cfg
  unfold Channel.reinstall
  refine ⟨by simp [hv], fun _ => hcfg, ChannelDynamic.sound_reinstalled mode cfg hdyn, wrap8_lt _,
    fun hr => ⟨hv, (deadlineStart_isSome mode cfg).1 hr⟩, fun _ hs hm _ => (deadlineStart_isSome mode cfg).2 ⟨hs, hm⟩,
    fun hf => ?_, fun ticks ht => ?_, fun _ hp hr hs hm hf => ?_⟩
  all_goals simp only [hforward, hsent] at *
  · obtain ⟨hp, hr, hs, -⟩ := ChannelDynamic.forwardAfter_ne_idle.1 hf
    exact ⟨hv, hp, hr, hs⟩
  · have out : e.dyn.forwardAfter mode cfg ≠ .idle := by rw [ht]; nofun
    obtain ⟨-, -, -, hm⟩ := ChannelDynamic.forwardAfter_ne_idle.1 out
    exact hm
  · exact ChannelDynamic.forwardAfter_ne_idle.2 ⟨hp, hr, hs, hm⟩ hf

/-- A re-install keeps the dynamic fields in range (R50). -/
theorem ChannelDynamic.inRange_reinstalled {d : ChannelDynamic} (mode : Mode) (cfg : ChannelConfig) (h : d.InRange) :
    (d.reinstalled mode cfg).InRange := by
  obtain ⟨hrun, hvalues⟩ := h
  unfold ChannelDynamic.reinstalled
  dsimp only
  split
  case h_6 | h_7 => exact ⟨(Nat.min_le_left ..).trans hrun, hvalues⟩
  all_goals exact ⟨Nat.zero_le _, hvalues⟩

/-- An entry that is not valid, cleared and without a deadline is sound (R3). -/
theorem Channel.sound_invalid (mode : Mode) (cfg : ChannelConfig) {revision : Nat} (hrev : revision < 256) :
    ({ valid := false, cfg := cfg, revision := revision, dyn := .cleared, deadline := none } : Channel).Sound mode :=
  ⟨fun _ => rfl, nofun, ChannelDynamic.sound_cleared cfg, hrev, nofun, nofun, fun hf => absurd rfl hf, nofun, nofun⟩

end Sys2Proof.Machine

/-! ## The loop records -/

namespace Sys2Proof.Machine

/-- A loop that the part's running has moved: its static part stands and the ranges of DRIVE and SAT_COUNT are kept. -/
structure Loop.Moved (l l' : Loop) : Prop where
  cfg : l'.cfg = l.cfg
  revision : l'.revision = l.revision
  range : l.InRange → l'.drive ≤ 255 ∧ l'.satCount ≤ 255

theorem Loop.Moved.refl (l : Loop) : l.Moved l := ⟨rfl, rfl, fun h => h.2⟩

theorem Loop.Moved.inRange {l l' : Loop} (h : l.Moved l') (hl : l.InRange) : l'.InRange :=
  ⟨h.cfg ▸ hl.1, h.range hl⟩

theorem Loop.Moved.trans {l l' l'' : Loop} (h : l.Moved l') (h' : l'.Moved l'') : l.Moved l'' :=
  ⟨h'.cfg.trans h.cfg, h'.revision.trans h.revision, fun hl => h'.range (h.inRange hl)⟩

theorem LoopConfig.InRange.startDuty_le {cfg : LoopConfig} (h : cfg.InRange) : cfg.startDuty ≤ 255 := by
  unfold LoopConfig.InRange at h
  omega

theorem LoopConfig.InRange.stopDuty_le {cfg : LoopConfig} (h : cfg.InRange) : cfg.stopDuty ≤ 255 := by
  unfold LoopConfig.InRange at h
  omega

theorem LoopConfig.InRange.maxDuty_le {cfg : LoopConfig} (h : cfg.InRange) : cfg.maxDuty ≤ 255 := by
  unfold LoopConfig.InRange at h
  omega

theorem LoopConfig.InRange.failsafeDuty_le {cfg : LoopConfig} (h : cfg.InRange) : cfg.failsafeDuty ≤ 255 := by
  unfold LoopConfig.InRange at h
  omega

theorem LoopConfig.InRange.satLimit_le {cfg : LoopConfig} (h : cfg.InRange) : cfg.satLimit ≤ 255 := by
  unfold LoopConfig.InRange at h
  omega

theorem Loop.moved_startStopTimer (mode : Mode) (l : Loop) : l.Moved (l.startStopTimer mode) := by
  unfold Loop.startStopTimer
  split
  · exact ⟨rfl, rfl, fun _ => ⟨Nat.zero_le _, Nat.zero_le _⟩⟩
  · exact ⟨rfl, rfl, fun h => h.2⟩

theorem Loop.moved_refusedRaise (l : Loop) : l.Moved l.refusedRaise.1 := by
  have limit : l.InRange → l.cfg.satLimit ≤ 255 := fun h => h.1.satLimit_le
  unfold Loop.refusedRaise
  split
  · next hlt => exact ⟨rfl, rfl, fun h => ⟨h.2.1, (Nat.succ_le_of_lt hlt).trans (limit h)⟩⟩
  · split
    · exact .refl l
    · exact ⟨rfl, rfl, fun h => ⟨h.2.1, limit h⟩⟩

theorem Loop.moved_stepStopped (mode : Mode) (d : Demand) (l : Loop) : l.Moved (l.stepStopped mode d) := by
  unfold Loop.stepStopped
  split
  · exact ⟨rfl, rfl, fun h => ⟨h.1.startDuty_le, h.2.2⟩⟩
  · exact ⟨rfl, rfl, fun h => h.2⟩
  · exact ⟨rfl, rfl, fun h => h.2⟩

theorem Loop.moved_stepRunning (mode : Mode) (d : Demand) (l : Loop) : l.Moved (l.stepRunning mode d).1 := by
  unfold Loop.stepRunning
  split
  · split
    · exact ⟨rfl, rfl, fun h => ⟨(Nat.min_le_right ..).trans h.1.maxDuty_le, Nat.zero_le _⟩⟩
    · exact l.moved_refusedRaise.trans ⟨rfl, rfl, fun h => h.2⟩
  · split
    · exact ⟨rfl, rfl, fun h => ⟨Nat.max_le.2 ⟨(Nat.sub_le ..).trans h.2.1, h.1.stopDuty_le⟩, Nat.zero_le _⟩⟩
    · have waiting : l.Moved { l with state := .stopWait, satCount := 0 } :=
        ⟨rfl, rfl, fun h => ⟨h.2.1, Nat.zero_le _⟩⟩
      exact (waiting.trans (Loop.moved_startStopTimer mode _)).trans ⟨rfl, rfl, fun h => h.2⟩
  · exact ⟨rfl, rfl, fun h => ⟨h.2.1, Nat.zero_le _⟩⟩

theorem Loop.moved_stepStopWait (mode : Mode) (d : Demand) (l : Loop) : l.Moved (l.stepStopWait mode d) := by
  unfold Loop.stepStopWait
  split
  · exact ⟨rfl, rfl, fun h => ⟨(Nat.min_le_right ..).trans h.1.maxDuty_le, h.2.2⟩⟩
  · exact ⟨rfl, rfl, fun h => h.2⟩
  · exact ⟨rfl, rfl, fun h => h.2⟩

/-- A step, in every state and with every demand (R81 to R86). -/
theorem Loop.moved_stepWith (mode : Mode) (d : Demand) (l : Loop) : l.Moved (l.stepWith mode d).1 := by
  unfold Loop.stepWith
  split
  · exact l.moved_stepStopped mode d
  · have running : l.Moved { l with state := .running } := ⟨rfl, rfl, fun h => h.2⟩
    exact running.trans (Loop.moved_stepRunning mode d _)
  · exact l.moved_stepRunning mode d
  · exact l.moved_stepStopWait mode d
  all_goals exact .refl l

theorem Loop.moved_sourceStale (l : Loop) : l.Moved l.sourceStale := by
  unfold Loop.sourceStale
  split
  · exact ⟨rfl, rfl, fun h => ⟨h.1.failsafeDuty_le, Nat.zero_le _⟩⟩
  · exact .refl l

theorem Loop.moved_sourceSample (mode : Mode) (l : Loop) : l.Moved (l.sourceSample mode) := by
  unfold Loop.sourceSample
  split
  · unfold Loop.resume
    split
    · exact ⟨rfl, rfl, fun h => ⟨(Nat.min_le_left ..).trans h.1.failsafeDuty_le, Nat.zero_le _⟩⟩
    · exact ⟨rfl, rfl, fun _ => ⟨Nat.zero_le _, Nat.zero_le _⟩⟩
  all_goals exact .refl l

theorem Loop.moved_release (mode : Mode) (source : ChannelState) (l : Loop) : l.Moved (l.release mode source) := by
  have live : l.Moved (if l.cfg.stopDuty ≤ l.drive then
      Loop.nextStepDown mode { l.setDrive (min l.drive l.cfg.maxDuty) with state := .running, satCount := 0 }
    else Loop.nextStepDown mode { l.setDrive 0 with state := .stopped, satCount := 0 }) := by
    split
    · exact ⟨rfl, rfl, fun h => ⟨(Nat.min_le_left ..).trans h.2.1, Nat.zero_le _⟩⟩
    · exact ⟨rfl, rfl, fun _ => ⟨Nat.zero_le _, Nat.zero_le _⟩⟩
  cases source with
  | stale | unseen => exact ⟨rfl, rfl, fun h => ⟨h.1.failsafeDuty_le, Nat.zero_le _⟩⟩
  | normal | highPend | high | lowPend | low => exact live

theorem Loop.moved_stopExpired (l : Loop) : l.Moved l.stopExpired := by
  unfold Loop.stopExpired
  split
  · exact ⟨rfl, rfl, fun _ => ⟨Nat.zero_le _, Nat.zero_le _⟩⟩
  all_goals exact ⟨rfl, rfl, fun h => h.2⟩

theorem Loop.moved_resync (l : Loop) : l.Moved l.resync := by
  unfold Loop.resync
  split
  · exact .refl l
  all_goals exact ⟨rfl, rfl, fun h => h.2⟩

theorem Loop.moved_toPass (l : Loop) : l.Moved l.toPass := ⟨rfl, rfl, fun h => h.2⟩

theorem Loop.moved_toActive (l : Loop) : l.Moved l.toActive := by
  have next : ∀ timer, l.Moved { l with stepTimer := timer } := fun _ => ⟨rfl, rfl, fun h => h.2⟩
  unfold Loop.toActive
  split
  case h_4 => exact (next _).trans (Loop.moved_startStopTimer .active _)
  case h_1 | h_2 | h_3 => exact next _
  all_goals exact .refl l

theorem Loop.moved_warmReset (l : Loop) : l.Moved l.warmReset := by
  unfold Loop.warmReset
  split
  · exact ⟨rfl, rfl, fun h => h.2⟩
  all_goals exact ⟨rfl, rfl, fun h => ⟨h.1.failsafeDuty_le, Nat.zero_le _⟩⟩

theorem Loop.moved_count (l : Loop) : l.Moved l.count := ⟨rfl, rfl, fun h => h.2⟩

/-- A command that changes one loop record alone moves it. -/
theorem LoopEffect.moved {b : State} {l l' : Loop} (h : LoopEffect b l l') : l.Moved l' := by
  cases h with
  | served | guarded | refreshExpired => exact ⟨rfl, rfl, fun h => h.2⟩
  | stopExpired => exact l.moved_stopExpired
  | sourceStale => exact l.moved_sourceStale
  | manual d hd => exact ⟨rfl, rfl, fun _ => ⟨hd, Nat.zero_le _⟩⟩
  | release source => exact l.moved_release _ source

/-! ### Installs and REMOVE -/

theorem Loop.inRange_installDisabled {cfg : LoopConfig} (hcfg : cfg.InRange) (l : Loop) :
    (l.installDisabled cfg).InRange :=
  ⟨hcfg, Nat.zero_le _, Nat.zero_le _⟩

theorem Loop.inRange_freshInstall {cfg : LoopConfig} (hcfg : cfg.InRange) (mode : Mode) (last : Option Int) (l : Loop) :
    (l.freshInstall mode last cfg).InRange := by
  unfold Loop.freshInstall
  cases last with
  | some _ => exact ⟨hcfg, hcfg.startDuty_le, Nat.zero_le _⟩
  | none => exact ⟨hcfg, hcfg.failsafeDuty_le, Nat.zero_le _⟩

theorem Loop.inRange_reinstall {cfg : LoopConfig} (hcfg : cfg.InRange) (mode : Mode) {l : Loop} (h : l.InRange) :
    (l.reinstall mode cfg).InRange := by
  obtain ⟨-, hdrive, hsat⟩ := h
  have base : ∀ d, d ≤ 255 →
      ((Loop.startRefresh { l with cfg := cfg, revision := wrap8 l.revision }).setDrive d).InRange :=
    fun d hd => ⟨hcfg, hd, hsat⟩
  unfold Loop.reinstall
  dsimp only
  split
  · exact base _ ((Nat.min_le_right ..).trans hcfg.maxDuty_le)
  · exact base _ hcfg.startDuty_le
  · exact (Loop.moved_startStopTimer mode _).inRange (base _ hcfg.stopDuty_le)
  · exact base _ hcfg.failsafeDuty_le
  · exact base _ (Nat.zero_le _)
  all_goals exact ⟨hcfg, hdrive, hsat⟩

theorem Loop.inRange_remove {l : Loop} (h : l.InRange) : l.remove.InRange := ⟨h.1, Nat.zero_le _, Nat.zero_le _⟩

theorem LoopConfig.inRange_default : LoopConfig.default.InRange := by
  simp [LoopConfig.InRange, LoopConfig.default, InWord]

theorem Loop.inRange_coldReset : Loop.coldReset.InRange := ⟨LoopConfig.inRange_default, Nat.zero_le _, Nat.zero_le _⟩

end Sys2Proof.Machine

/-! ## What each effect does to one entry and to one loop -/

namespace Sys2Proof.Machine

/-! ### Ranges of a sample -/

theorem inWord_condition (cfg : ChannelConfig) (raw : Int) : InWord (cfg.condition raw) := by
  unfold ChannelConfig.condition saturate16 InWord
  omega

theorem inWord_cellValue (c : Cell) : InWord c.value := by
  have hlt := BitVec.toInt_lt (x := c.b3 ++ c.b4)
  have hle := BitVec.le_toInt (x := c.b3 ++ c.b4)
  unfold Cell.value InWord
  omega

/-! ### What the running leaves -/

/-- The fields of the content outside the tables and the Alarm Queue are those of `s`. -/
structure State.SameRest (s t : State) : Prop where
  settings : t.settings = s.settings
  missList : t.missList = s.missList
  editBuffer : t.editBuffer = s.editBuffer
  agent : t.agent = s.agent
  frozen : t.frozen = s.frozen

theorem State.SameRest.trans {s t u : State} (h : s.SameRest t) (h' : t.SameRest u) : s.SameRest u :=
  ⟨h'.settings.trans h.settings, h'.missList.trans h.missList, h'.editBuffer.trans h.editBuffer, h'.agent.trans h.agent,
    h'.frozen.trans h.frozen⟩

theorem State.sameRest_enterSync (s : State) (p : Port) : s.SameRest (s.enterSync p) := by
  cases p <;> constructor <;> simp [State.enterSync, State.portReturns]

theorem State.sameRest_enterHunt (s : State) (p : Port) : s.SameRest (s.enterHunt p) := by
  cases p <;> constructor <;> simp [State.enterHunt, State.portLost]

theorem State.sameRest_stepLoop (s : State) (k : Fin Config.loopCount) (d : Demand) : s.SameRest (s.stepLoop k d) := by
  unfold State.stepLoop
  dsimp only
  split <;> constructor <;> simp

theorem State.sameRest_takeHit (s : State) (n : Fin Config.channelCount) (c : Cell) : s.SameRest (s.takeHit n c) := by
  obtain ⟨d, d', q, pin, seq, fifo, lost, -, -, h⟩ := s.takeHit_spec n c
  rw [h]
  exact ⟨rfl, rfl, rfl, rfl, rfl⟩

theorem State.sameRest_deadlineExpires (s : State) (n : Fin Config.channelCount) : s.SameRest (s.deadlineExpires n) := by
  unfold State.deadlineExpires
  dsimp only
  split <;> constructor <;> simp [State.enterStale]

theorem State.sameRest_acknowledge (s : State) (n : Fin Config.channelCount) : s.SameRest (s.acknowledge n) := by
  unfold State.acknowledge
  dsimp only
  split <;> constructor <;> simp [State.returnToNormal]

theorem State.sameRest_removeTripRecord (s : State) (n : Fin Config.channelCount) : s.SameRest (s.removeTripRecord n) := by
  unfold State.removeTripRecord
  split <;> exact ⟨rfl, rfl, rfl, rfl, rfl⟩

/-- The running of the part leaves the settings, the Miss List, the edit buffer, the Agent and the frozen flag. -/
theorem TableEffect.sameRest {b u : State} (h : TableEffect b u) : b.SameRest u := by
  cases h with
  | linkUp p => exact b.sameRest_enterSync p
  | linkDown p => exact b.sameRest_enterHunt p
  | hit n c => exact b.sameRest_takeHit n c
  | stepLoop k d => exact b.sameRest_stepLoop k d
  | deadline n => exact b.sameRest_deadlineExpires n
  | ackRecord seq n =>
    have removed : b.SameRest (b.removeRecord seq) := ⟨rfl, rfl, rfl, rfl, rfl⟩
    exact removed.trans (State.sameRest_acknowledge _ n)
  | ackEntry n => exact (b.sameRest_removeTripRecord n).trans (State.sameRest_acknowledge _ n)
  | nothing | loop | alarms | forwardRefresh | abandon => exact ⟨rfl, rfl, rfl, rfl, rfl⟩

/-! ### The operations that the Agent and the resets make -/

@[simp] theorem State.warmReset_settings (s : State) : s.warmReset.settings = s.settings := by
  simp [State.warmReset, State.sessionReset, State.forwardingReset, State.alarmReset]

@[simp] theorem State.warmReset_channels (s : State) :
    s.warmReset.channels = mapTable (Channel.warmReset s.settings.mode) s.channels := rfl

@[simp] theorem State.warmReset_loops (s : State) : s.warmReset.loops = mapTable Loop.warmReset s.loops := rfl

@[simp] theorem State.warmReset_missList (s : State) : s.warmReset.missList = [] := rfl

@[simp] theorem State.warmReset_alarms (s : State) : s.warmReset.alarms = [] := rfl

@[simp] theorem State.warmReset_editBuffer (s : State) : s.warmReset.editBuffer = .empty := rfl

@[simp] theorem State.warmReset_agent (s : State) : s.warmReset.agent = .idle := rfl

@[simp] theorem State.warmReset_frozen (s : State) : s.warmReset.frozen = s.frozen := by
  simp [State.warmReset, State.sessionReset, State.forwardingReset, State.alarmReset]

@[simp] theorem State.countBoundary_channels (s : State) :
    s.countBoundary.channels = mapTable Channel.count s.channels := rfl

@[simp] theorem State.countBoundary_loops (s : State) : s.countBoundary.loops = mapTable Loop.count s.loops := rfl

/-- A miss touches the Miss List, its counter and the north forward FIFO only (R12). -/
theorem State.takeMiss_spec (s : State) (c : Cell) :
    ∃ fifo lost, s.takeMiss c =
      { s with missList := missUpdate c.key s.missList, misses := bump16 s.misses
               northFifo := fifo, northOverflow := lost } := by
  unfold State.takeMiss
  dsimp only
  split
  · exact ⟨_, _, State.handNorth_frame ..⟩
  · exact ⟨s.northFifo, s.northOverflow, rfl⟩

/-- An install re-installs or fills its entry, takes its key out of the Miss List, and may withdraw records
(R15, R170, R171). -/
theorem State.installChannel_spec (s : State) (n : Fin Config.channelCount) (cfg : ChannelConfig) :
    ∃ e q pin, ((s.channels[n].valid = true ∧ e = s.channels[n].reinstall s.settings.mode cfg)
        ∨ e = s.channels[n].freshInstall s.settings.mode cfg)
      ∧ ReportsOf s.alarms q
      ∧ s.installChannel n cfg =
        { s with channels := s.channels.set n e, missList := missRemove cfg.key s.missList, alarms := q, alertPin := pin } := by
  unfold State.installChannel
  dsimp only
  split
  · next h =>
    have hv : s.channels[n].valid = true := by
      simp only [Channel.reinstalls, Bool.and_eq_true] at h
      exact h.1
    exact ⟨_, s.alarms, s.alertPin, .inl ⟨hv, rfl⟩, .refl _, rfl⟩
  · exact ⟨_, _, _, .inr rfl, .filter s.alarms _, rfl⟩

/-- An install changes its loop and may withdraw records; a record in range leaves a loop in range (R172, R173). -/
theorem State.installLoop_spec (s : State) (k : Fin Config.loopCount) (cfg : LoopConfig) :
    ∃ l q pin, (cfg.InRange → s.loops[k].InRange → l.InRange) ∧ ReportsOf s.alarms q
      ∧ s.installLoop k cfg = { s with loops := s.loops.set k l, alarms := q, alertPin := pin } := by
  unfold State.installLoop
  split
  · exact ⟨_, _, _, fun hcfg _ => Loop.inRange_installDisabled hcfg _, .filter s.alarms _, rfl⟩
  · split
    · exact ⟨_, _, _, fun hcfg _ => Loop.inRange_freshInstall hcfg _ _ _, .filter s.alarms _, rfl⟩
    · exact ⟨_, s.alarms, s.alertPin, fun hcfg hl => Loop.inRange_reinstall hcfg _ hl, .refl _, rfl⟩

/-- New settings move the entries and the loops: a change of MODE is a switch (R11, R25, R97, R151). -/
theorem State.withSettings_spec (s : State) (p : Settings) :
    ∃ f g, (∀ e : Channel, e.Moved s.settings.mode p.mode (f e)) ∧ (∀ l : Loop, l.Moved (g l))
      ∧ s.withSettings p = { s with settings := p, channels := mapTable f s.channels, loops := mapTable g s.loops } := by
  unfold State.withSettings
  split
  · next h =>
    exact ⟨id, id, fun e => h ▸ .refl _ e, .refl, by rw [mapTable_id, mapTable_id]⟩
  · next h =>
    cases hp : p.mode with
    | pass => exact ⟨_, _, Channel.moved_toPass _, Loop.moved_toPass, rfl⟩
    | active =>
      have hs : s.settings.mode = .pass := by
        cases hs : s.settings.mode
        · rfl
        · exact absurd (hp.trans hs.symm) h
      exact ⟨_, _, hs ▸ Channel.moved_toActive, Loop.moved_toActive, rfl⟩

/-- The checks of a channel COMMIT that pass (R167). -/
theorem State.channelChecks_eq_none {s : State} {n : Fin Config.channelCount} {cfg : ChannelConfig}
    (h : s.channelChecks n cfg = none) : cfg.Installed ∧ s.keyHolder n cfg = none := by
  unfold State.channelChecks at h
  split at h
  · cases h
  · next hnode =>
    split at h
    · cases h
    · next hlow =>
      split at h
      · cases h
      · next hhyst =>
        split at h
        · cases h
        · next hkey =>
          obtain ⟨hone, hmax⟩ := not_not.1 hnode
          exact ⟨⟨hone, hmax, not_not.1 hlow, not_not.1 hhyst⟩, hkey⟩

/-! ### The entries -/

theorem State.deadlineExpires_channels (s : State) (n : Fin Config.channelCount) :
    (s.deadlineExpires n).channels = s.channels.set n s.channels[n].deadlineExpired := by
  unfold State.deadlineExpires Channel.deadlineExpired
  dsimp only
  split <;> simp [State.enterStale, Channel.stopDeadline, ChannelDynamic.goneStale]

theorem State.acknowledge_channels (s : State) (n : Fin Config.channelCount) :
    (s.acknowledge n).channels = s.channels.set n { s.channels[n] with dyn := s.channels[n].dyn.acknowledged } := by
  unfold State.acknowledge ChannelDynamic.acknowledged
  dsimp only
  split <;> simp [State.returnToNormal, ChannelDynamic.normalAgain]

theorem State.removeTripRecord_channels (s : State) (n : Fin Config.channelCount) :
    (s.removeTripRecord n).channels = s.channels := by
  unfold State.removeTripRecord
  split <;> rfl

theorem State.enterSync_channels (s : State) (p : Port) : (s.enterSync p).channels = s.channels := by
  cases p <;> simp [State.enterSync, State.portReturns]

theorem State.enterHunt_channels (s : State) (p : Port) : (s.enterHunt p).channels = s.channels := by
  cases p <;> simp [State.enterHunt, State.portLost]

theorem State.stepLoop_channels (s : State) (k : Fin Config.loopCount) (d : Demand) :
    (s.stepLoop k d).channels = s.channels := by
  unfold State.stepLoop
  dsimp only
  split <;> simp

/-- A table in which one entry was moved. -/
theorem Channel.moved_set {mode : Mode} {v : Vector Channel Config.channelCount} {n : Fin Config.channelCount} {e : Channel}
    (h : v[n].Moved mode mode e) (m : Fin Config.channelCount) : v[m].Moved mode mode (v.set n e)[m] := by
  rw [getElem_set_table]
  split
  · next hm => exact hm ▸ h
  · exact .refl mode _

/-- The running of the part moves every entry. -/
theorem TableEffect.channel {b u : State} (h : TableEffect b u) (n : Fin Config.channelCount) :
    b.channels[n].Moved b.settings.mode b.settings.mode u.channels[n] := by
  cases h with
  | linkUp p => rw [b.enterSync_channels p]; exact .refl _ _
  | linkDown p => rw [b.enterHunt_channels p]; exact .refl _ _
  | hit m c hm hv =>
    obtain ⟨d, d', q, pin, seq, fifo, lost, hd, hd', ht⟩ := b.takeHit_spec m c
    rw [ht, hm]
    exact Channel.moved_set (Channel.moved_sampled hv hd hd' (inWord_condition _ _) (inWord_cellValue c)) n
  | stepLoop k d => rw [b.stepLoop_channels k d]; exact .refl _ _
  | deadline m hd =>
    rw [b.deadlineExpires_channels m]
    exact Channel.moved_set (Channel.moved_deadlineExpired hd) n
  | forwardRefresh m ticks hf => exact Channel.moved_set (Channel.moved_forwardExpired hf) n
  | abandon seq =>
    have : (b.abandon seq).channels = mapTable (Channel.forgetTrip seq) b.channels := rfl
    rw [this, mapTable_fin]
    exact Channel.moved_forgetTrip _ seq _
  | ackRecord seq m hs =>
    rw [State.acknowledge_channels]
    exact Channel.moved_set (v := b.channels) (Channel.moved_acknowledged (.inr ⟨seq, hs⟩)) n
  | ackEntry m hs =>
    rw [State.acknowledge_channels, b.removeTripRecord_channels m]
    exact Channel.moved_set (Channel.moved_acknowledged (.inl ((ChannelState.isTripped_iff _).2 hs))) n
  | nothing | loop | alarms => exact .refl _ _

/-- What becomes of entry `e` of the part `b` under an effect of command `i` that leaves the part `u`. -/
inductive ChannelFate (i : Instr) (b u : State) (e : Channel) : Channel → Prop
  | moved {e' : Channel} : e.Moved b.settings.mode u.settings.mode e' → ChannelFate i b u e e'
  | installed (cfg : ChannelConfig) {e' : Channel} : i = .endOfScan → b.agent ≠ .idle → u.settings = b.settings →
      b.editBuffer = .channel cfg → cfg.Installed →
      (e.valid = true ∧ e' = e.reinstall b.settings.mode cfg) ∨ e' = e.freshInstall b.settings.mode cfg →
      ChannelFate i b u e e'
  | removed : i = .removeChannel ∨ i = .removeLoop → b.frozen = false → u.settings = b.settings →
      ChannelFate i b u e e.remove
  | reset (edge : ColdEdge) : i = .coldReset edge → u.settings = .default → ChannelFate i b u e .coldReset

/-- What becomes of every entry under an effect. -/
theorem Effect.channel {i : Instr} {b u : State} (h : Effect i b u) (n : Fin Config.channelCount) :
    ChannelFate i b u b.channels[n] u.channels[n] := by
  cases h with
  | tables ht =>
    refine .moved ?_
    rw [ht.sameRest.settings]
    exact ht.channel n
  | coldReset edge hi =>
    have : b.coldCondition.channels[n] = .coldReset := by simp [State.coldCondition, State.reset]
    rw [this]
    exact .reset edge hi rfl
  | warmReset =>
    rw [b.warmReset_channels, mapTable_fin]
    exact .moved (Channel.moved_warmReset _ _)
  | miss c =>
    obtain ⟨fifo, lost, hmiss⟩ := b.takeMiss_spec c
    rw [hmiss]
    exact .moved (.refl _ _)
  | setPart p =>
    obtain ⟨f, g, hf, -, hset⟩ := b.withSettings_spec p
    rw [hset, mapTable_fin]
    exact .moved (hf _)
  | installChannel m cfg hi ha hb hc =>
    obtain ⟨e, q, pin, hkind, -, hinstall⟩ := b.installChannel_spec m cfg
    rw [hinstall, getElem_set_table]
    split
    · next hm =>
      subst hm
      exact .installed cfg hi ha rfl hb (State.channelChecks_eq_none hc).1 hkind
    · exact .moved (.refl _ _)
  | installLoop k cfg =>
    obtain ⟨l, q, pin, -, -, hinstall⟩ := b.installLoop_spec k cfg
    rw [hinstall]
    exact .moved (.refl _ _)
  | removeChannel m hi hf =>
    have hset : ((b.updateChannel m Channel.remove).withdrawChannel m).channels = b.channels.set m b.channels[m].remove := rfl
    rw [hset, getElem_set_table]
    split
    · next hm =>
      subst hm
      exact .removed hi hf rfl
    · exact .moved (.refl _ _)
  | clearMiss | emptyBuffer | loadChannel | loadLoop | setChannel | setLoop | commit | scanRefused | removeLoop | freeze =>
    exact .moved (.refl _ _)

/-! ### The loops -/

/-- A table in which one loop was moved. -/
theorem Loop.moved_set {v : Vector Loop Config.loopCount} {k : Fin Config.loopCount} {l : Loop} (h : v[k].Moved l)
    (j : Fin Config.loopCount) : v[j].Moved (v.set k l)[j] := by
  rw [getElem_set_table]
  split
  · next hj => exact hj ▸ h
  · exact .refl _

theorem State.moved_enterSync (s : State) (p : Port) (k : Fin Config.loopCount) :
    s.loops[k].Moved (s.enterSync p).loops[k] := by
  cases p with
  | north =>
    have : (s.enterSync .north).loops = s.loops := by simp [State.enterSync, State.portReturns]
    rw [this]
    exact .refl _
  | south =>
    have : (s.enterSync .south).loops = mapTable Loop.resync s.loops := by simp [State.enterSync, State.portReturns]
    rw [this, mapTable_fin]
    exact Loop.moved_resync _

theorem State.enterHunt_loops (s : State) (p : Port) : (s.enterHunt p).loops = s.loops := by
  cases p <;> simp [State.enterHunt, State.portLost]

theorem State.stepLoop_loops (s : State) (k : Fin Config.loopCount) (d : Demand) :
    (s.stepLoop k d).loops = s.loops.set k (s.loops[k].stepWith s.settings.mode d).1 := by
  unfold State.stepLoop
  dsimp only
  split <;> simp

/-- The loops hear of the expiry of a deadline by the source-stale event, unless the entry was STALE (R45, R89). -/
theorem State.deadlineExpires_loops (s : State) (n : Fin Config.channelCount) :
    (s.deadlineExpires n).loops = s.loops
      ∨ (s.deadlineExpires n).loops = mapTable (fun l => if l.cfg.source = n then l.sourceStale else l) s.loops := by
  unfold State.deadlineExpires
  dsimp only
  split
  · exact .inl rfl
  · exact .inr (by simp [State.enterStale, State.sourceStaleEvent])

theorem State.acknowledge_loops (s : State) (n : Fin Config.channelCount) : (s.acknowledge n).loops = s.loops := by
  unfold State.acknowledge
  dsimp only
  split <;> simp [State.returnToNormal]

theorem State.removeTripRecord_loops (s : State) (n : Fin Config.channelCount) :
    (s.removeTripRecord n).loops = s.loops := by
  unfold State.removeTripRecord
  split <;> rfl

/-- The running of the part moves every loop. -/
theorem TableEffect.loopMoved {b u : State} (h : TableEffect b u) (k : Fin Config.loopCount) :
    b.loops[k].Moved u.loops[k] := by
  cases h with
  | linkUp p => exact b.moved_enterSync p k
  | linkDown p => rw [b.enterHunt_loops p]; exact .refl _
  | hit n c =>
    obtain ⟨d, d', q, pin, seq, fifo, lost, -, -, ht⟩ := b.takeHit_spec n c
    have : (b.takeHit n c).loops =
        mapTable (fun l => if l.cfg.source = n then l.sourceSample b.settings.mode else l) b.loops := by rw [ht]
    rw [this, mapTable_fin]
    split
    · exact Loop.moved_sourceSample _ _
    · exact .refl _
  | loop j l hl => exact Loop.moved_set hl.moved k
  | stepLoop j d =>
    rw [b.stepLoop_loops j d]
    exact Loop.moved_set (Loop.moved_stepWith _ d _) k
  | deadline n =>
    rcases b.deadlineExpires_loops n with h | h <;> rw [h]
    · exact .refl _
    · rw [mapTable_fin]
      split
      · exact Loop.moved_sourceStale _
      · exact .refl _
  | ackRecord seq n => rw [State.acknowledge_loops]; exact .refl _
  | ackEntry n => rw [State.acknowledge_loops, b.removeTripRecord_loops n]; exact .refl _
  | nothing | alarms | forwardRefresh | abandon => exact .refl _

/-- What becomes of loop `l` of the part `b` under an effect of command `i`. -/
inductive LoopFate (i : Instr) (b : State) (l : Loop) : Loop → Prop
  | moved {l' : Loop} : l.Moved l' → LoopFate i b l l'
  | installed (cfg : LoopConfig) {l' : Loop} : i = .endOfScan → b.agent ≠ .idle → b.editBuffer = .loop cfg →
      (cfg.InRange → l.InRange → l'.InRange) → LoopFate i b l l'
  | removed : i = .removeChannel ∨ i = .removeLoop → b.frozen = false → LoopFate i b l l.remove
  | reset (edge : ColdEdge) : i = .coldReset edge → LoopFate i b l .coldReset

/-- What becomes of every loop under an effect. -/
theorem Effect.loop {i : Instr} {b u : State} (h : Effect i b u) (k : Fin Config.loopCount) :
    LoopFate i b b.loops[k] u.loops[k] := by
  cases h with
  | tables ht => exact .moved (ht.loopMoved k)
  | coldReset edge hi =>
    have : b.coldCondition.loops[k] = .coldReset := by simp [State.coldCondition, State.reset]
    rw [this]
    exact .reset edge hi
  | warmReset =>
    rw [b.warmReset_loops, mapTable_fin]
    exact .moved (Loop.moved_warmReset _)
  | miss c =>
    obtain ⟨fifo, lost, hmiss⟩ := b.takeMiss_spec c
    rw [hmiss]
    exact .moved (.refl _)
  | setPart p =>
    obtain ⟨f, g, -, hg, hset⟩ := b.withSettings_spec p
    rw [hset, mapTable_fin]
    exact .moved (hg _)
  | installChannel n cfg =>
    obtain ⟨e, q, pin, -, -, hinstall⟩ := b.installChannel_spec n cfg
    rw [hinstall]
    exact .moved (.refl _)
  | installLoop j cfg hi ha hb =>
    obtain ⟨l, q, pin, hrange, -, hinstall⟩ := b.installLoop_spec j cfg
    rw [hinstall, getElem_set_table]
    split
    · next hj =>
      subst hj
      exact .installed cfg hi ha hb hrange
    · exact .moved (.refl _)
  | removeLoop j hi hf =>
    have hset : ((b.updateLoop j Loop.remove).withdrawLoop j).loops = b.loops.set j b.loops[j].remove := rfl
    rw [hset, getElem_set_table]
    split
    · next hj =>
      subst hj
      exact .removed hi hf
    · exact .moved (.refl _)
  | clearMiss | emptyBuffer | loadChannel | loadLoop | setChannel | setLoop | commit | scanRefused | removeChannel | freeze =>
    exact .moved (.refl _)

end Sys2Proof.Machine

/-! ## O55: the laws of the entries -/

namespace Sys2Proof.Machine

/-- Every effect keeps the laws of every entry. -/
theorem Effect.channelsSound {i : Instr} {b u : State} (h : Effect i b u) (hb : b.ChannelsSound) : u.ChannelsSound := by
  intro n
  have hn := hb n
  generalize hu : u.channels[n] = e'
  have fate := h.channel n
  rw [hu] at fate
  cases fate with
  | moved hm => exact hm.sound hn
  | installed cfg _ _ hs _ hcfg hkind =>
    rw [hs]
    rcases hkind with ⟨hv, rfl⟩ | rfl
    · exact Channel.sound_reinstall hcfg hv hn
    · exact Channel.sound_freshInstall _ hcfg _
  | removed => exact Channel.sound_invalid _ _ (wrap8_lt _)
  | reset => exact Channel.sound_invalid _ _ (by decide)

/-- Settles O55: each effect moves an entry, installs or removes it, or is a cold reset, and each of these leaves it sound. -/
theorem stepKeepsChannelsSound : Obligations.StepKeepsChannelsSound := by
  intro s t hs h
  refine step_keeps (P := State.ChannelsSound) (fun s t ht hs n => ?_) (fun i b u he => he.channelsSound)
    (fun s hs n => ?_) hs h
  · obtain ⟨hsettings, hchannels, -⟩ := State.content_eq_iff.1 ht
    rw [hsettings, hchannels]
    exact hs n
  · rw [s.countBoundary_channels, mapTable_fin]
    exact (Channel.moved_count _ _).sound (hs n)

/-! ## O49: the static parts -/

/-- Command `i` ends no COMMIT of the part `b`, removes nothing of it and is no cold reset. -/
def StaticsKept (i : Instr) (b : State) : Prop :=
  (i ≠ .endOfScan ∨ b.agent = .idle) ∧ ((i ≠ .removeChannel ∧ i ≠ .removeLoop) ∨ b.frozen = true) ∧ ∀ e, i ≠ .coldReset e

theorem Loop.moved_of_fate {i : Instr} {b : State} {l l' : Loop} (h : LoopFate i b l l') (hi : StaticsKept i b) :
    l.Moved l' := by
  obtain ⟨hscan, hremove, hcold⟩ := hi
  cases h with
  | moved hm => exact hm
  | installed cfg hi ha => rcases hscan with h | h <;> contradiction
  | removed hi hf => rcases hremove with ⟨h1, h2⟩ | h <;> simp_all
  | reset edge hi => exact absurd hi (hcold edge)

theorem Channel.moved_of_fate {i : Instr} {b u : State} {e e' : Channel} (h : ChannelFate i b u e e') (hi : StaticsKept i b) :
    e.Moved b.settings.mode u.settings.mode e' := by
  obtain ⟨hscan, hremove, hcold⟩ := hi
  cases h with
  | moved hm => exact hm
  | installed cfg hi ha => rcases hscan with h | h <;> contradiction
  | removed hi hf => rcases hremove with ⟨h1, h2⟩ | h <;> simp_all
  | reset edge hi => exact absurd hi (hcold edge)

/-- Where no COMMIT ends, nothing is removed and no cold reset comes, every static part stands. -/
theorem exec_static {i : Instr} {s t : State} (h : exec i s = .next t) (hi : StaticsKept i s) :
    (∀ n : Fin 128, t.channels[n].valid = s.channels[n].valid ∧ t.channels[n].cfg = s.channels[n].cfg
        ∧ t.channels[n].revision = s.channels[n].revision)
      ∧ ∀ k : Fin 16, t.loops[k].cfg = s.loops[k].cfg ∧ t.loops[k].revision = s.loops[k].revision := by
  obtain ⟨b, u, hb, he, hu⟩ := exec_causes h
  obtain ⟨-, hchannels, -, -, hloops, -, hagent, hfrozen⟩ := State.content_eq_iff.1 hb
  obtain ⟨-, hchannels', -, -, hloops', -⟩ := State.content_eq_iff.1 hu
  have hi : StaticsKept i b := by
    unfold StaticsKept
    rw [hagent, hfrozen]
    exact hi
  rw [hchannels', hloops', ← hchannels, ← hloops]
  refine ⟨fun n => ?_, fun k => ?_⟩
  · have moved := Channel.moved_of_fate (he.channel n) hi
    exact ⟨moved.valid, moved.cfg, moved.revision⟩
  · have moved := Loop.moved_of_fate (he.loop k) hi
    exact ⟨moved.cfg, moved.revision⟩

/-- A frozen part without a COMMIT in flight keeps its settings, the flag, and an Agent that is IDLE (R17, R153). -/
theorem Effect.frozen {i : Instr} {b u : State} (h : Effect i b u) (hf : b.frozen = true) (ha : b.agent = .idle)
    (hcold : ∀ e, i ≠ .coldReset e) : u.frozen = true ∧ u.agent = .idle ∧ u.settings = b.settings := by
  cases h with
  | tables ht =>
    have same := ht.sameRest
    exact ⟨same.frozen.trans hf, same.agent.trans ha, same.settings⟩
  | coldReset edge hi => exact absurd hi (hcold edge)
  | warmReset =>
    rw [b.warmReset_frozen]
    exact ⟨hf, b.warmReset_agent, b.warmReset_settings⟩
  | miss c =>
    obtain ⟨fifo, lost, hmiss⟩ := b.takeMiss_spec c
    rw [hmiss]
    exact ⟨hf, ha, rfl⟩
  | setPart p _ _ hnot => exact absurd hf (by simp [hnot])
  | commit c hnot => exact absurd hf (by simp [hnot])
  | scanRefused hnot => exact absurd ha hnot
  | installChannel n cfg _ hnot => exact absurd ha hnot
  | installLoop k cfg _ hnot => exact absurd ha hnot
  | clearMiss | emptyBuffer | loadChannel | loadLoop | setChannel | setLoop | removeChannel | removeLoop =>
    exact ⟨hf, ha, rfl⟩
  | freeze => exact ⟨rfl, ha, rfl⟩

theorem staticPartsChangeOnlyByInstallOrRemove : Clause.StaticPartsChangeOnlyByInstallOrRemove :=
  fun _ _ _ h hscan hchannel hloop hcold => exec_static h ⟨.inl hscan, .inl ⟨hchannel, hloop⟩, hcold⟩

theorem frozenPartKeepsTablesAndSettings : Clause.FrozenPartKeepsTablesAndSettings := by
  intro s t i hf ha h hcold
  obtain ⟨b, u, hb, he, hu⟩ := exec_causes h
  obtain ⟨hsettings, -, -, -, -, -, hagent, hfrozen⟩ := State.content_eq_iff.1 hb
  obtain ⟨hsettings', -, -, -, -, -, hagent', hfrozen'⟩ := State.content_eq_iff.1 hu
  obtain ⟨hf', ha', hs'⟩ := he.frozen (hfrozen.trans hf) (hagent.trans ha) hcold
  exact ⟨hfrozen'.trans hf', hagent'.trans ha', (hsettings'.trans hs').trans hsettings,
    exec_static h ⟨.inr ha, .inr hf, hcold⟩⟩

/-- Settles O49: the effects that change a static part are installs, removals and cold reset; those that change a setting, the
flag or the Agent of a part that is not committing are refused while frozen. -/
theorem staticPartsStandStill : Obligations.StaticPartsStandStill :=
  ⟨staticPartsChangeOnlyByInstallOrRemove, frozenPartKeepsTablesAndSettings⟩

/-! ## O54: keys and the Miss List -/

/-- No valid entry of `t` is new, or has another static part than in `s`. -/
def State.ValidWithin (s t : State) : Prop :=
  ∀ n : Fin Config.channelCount, t.channels[n].valid = true →
    s.channels[n].valid = true ∧ t.channels[n].cfg = s.channels[n].cfg

theorem State.ValidWithin.keysDistinct {s t : State} (h : s.ValidWithin t) (hs : s.KeysDistinct) : t.KeysDistinct := by
  intro m n hm hn hkey
  obtain ⟨hm', hmc⟩ := h m hm
  obtain ⟨hn', hnc⟩ := h n hn
  exact hs m n hm' hn' (by rw [← hmc, ← hnc]; exact hkey)

/-- Records that leave the Miss List, and entries that leave the table, break no law of the Miss List. -/
theorem State.ValidWithin.missSound {s t : State} (h : s.ValidWithin t) (hlist : t.missList.Sublist s.missList)
    (hs : s.MissSound) : t.MissSound := by
  obtain ⟨hlen, hnodup, hhits, hkeys⟩ := hs
  refine ⟨hlist.length_le.trans hlen, hnodup.sublist (hlist.map _), fun r hr => hhits r (hlist.subset hr),
    fun r hr n hn => ?_⟩
  obtain ⟨hv, hcfg⟩ := h n hn
  rw [hcfg]
  exact hkeys r (hlist.subset hr) n hv

theorem missRemove_sublist (key : Key) (list : List MissRecord) : (missRemove key list).Sublist list := List.filter_sublist

theorem key_ne_of_mem_missRemove {key : Key} {list : List MissRecord} {r : MissRecord} (h : r ∈ missRemove key list) :
    r.key ≠ key := by
  simpa using (List.mem_filter.1 h).2

theorem one_le_bump8 (n : Nat) : 1 ≤ bump8 n ∧ bump8 n ≤ 255 := by
  unfold bump8
  omega

/-- A miss of a key that no valid entry holds keeps the laws of the Miss List (R14). -/
theorem State.missSound_missUpdate {s t : State} {key : Key} (hs : s.MissSound)
    (hkey : ∀ n : Fin Config.channelCount, s.channels[n].valid = true → s.channels[n].cfg.key ≠ key)
    (hchannels : t.channels = s.channels) (hlist : t.missList = missUpdate key s.missList) : t.MissSound := by
  have kept : ((missRemove key s.missList).take (Config.missCapacity - 1)).Sublist s.missList :=
    (List.take_sublist ..).trans (missRemove_sublist ..)
  obtain ⟨-, hnodup, hhits, hkeys⟩ := hs
  unfold State.MissSound
  rw [hlist, hchannels, missUpdate]
  refine ⟨?_, ?_, fun r hr => ?_, fun r hr n hn => ?_⟩
  · simp only [List.length_cons, List.length_take, Config.missCapacity]
    omega
  · rw [List.map_cons, List.nodup_cons]
    refine ⟨fun hmem => ?_, hnodup.sublist (kept.map _)⟩
    obtain ⟨r, hr, hrk⟩ := List.mem_map.1 hmem
    exact key_ne_of_mem_missRemove (List.mem_of_mem_take hr) hrk
  · rcases List.mem_cons.1 hr with rfl | hr
    · exact one_le_bump8 _
    · exact hhits r (kept.subset hr)
  · rcases List.mem_cons.1 hr with rfl | hr
    · exact hkey n hn
    · exact hkeys r (kept.subset hr) n hn

/-- An install whose checks pass keeps the keys distinct: no other valid entry holds the key (R5, R167). -/
theorem State.keysDistinct_install {s t : State} {n : Fin Config.channelCount} {cfg : ChannelConfig} {e : Channel}
    (hs : s.KeysDistinct) (hholder : s.keyHolder n cfg = none) (hcfg : e.cfg = cfg) (ht : t.channels = s.channels.set n e) :
    t.KeysDistinct := by
  have other : ∀ m, m ≠ n → s.channels[m].valid = true → s.channels[m].cfg.key ≠ cfg.key := by
    intro m hm hv hk
    have free : s.channels[m].valid = true → ¬s.channels[m].cfg.key = cfg.key := by
      simpa [hm] using State.findChannel_eq_none.1 hholder m
    exact free hv hk
  unfold State.KeysDistinct
  rw [ht]
  intro j m hj hm hkey
  rw [getElem_set_table] at hj hm
  rw [getElem_set_table, getElem_set_table] at hkey
  by_cases hjn : j = n <;> by_cases hmn : m = n
  · exact hjn.trans hmn.symm
  · simp only [hjn, hmn, if_true, if_false, hcfg] at hkey hm
    exact absurd hkey.symm (other m hmn hm)
  · simp only [hjn, hmn, if_true, if_false, hcfg] at hkey hj
    exact absurd hkey (other j hjn hj)
  · simp only [hjn, hmn, if_false] at hkey hj hm
    exact hs j m hj hm hkey

/-- The installed key leaves the Miss List (R15). -/
theorem State.missSound_install {s t : State} {n : Fin Config.channelCount} {cfg : ChannelConfig} {e : Channel}
    (hs : s.MissSound) (hcfg : e.cfg = cfg) (ht : t.channels = s.channels.set n e)
    (hlist : t.missList = missRemove cfg.key s.missList) : t.MissSound := by
  have kept := missRemove_sublist cfg.key s.missList
  obtain ⟨hlen, hnodup, hhits, hkeys⟩ := hs
  unfold State.MissSound
  rw [hlist, ht]
  refine ⟨kept.length_le.trans hlen, hnodup.sublist (kept.map _), fun r hr => hhits r (kept.subset hr),
    fun r hr m hm => ?_⟩
  rw [getElem_set_table] at hm ⊢
  split
  · rw [hcfg]
    exact (key_ne_of_mem_missRemove hr).symm
  · next hmn =>
    rw [if_neg hmn] at hm
    exact hkeys r (kept.subset hr) m hm

theorem State.ValidWithin.of_channels {s t : State} (h : t.channels = s.channels) : s.ValidWithin t := by
  intro n hn
  rw [h] at hn ⊢
  exact ⟨hn, rfl⟩

theorem State.ValidWithin.of_moved {s t : State}
    (h : ∀ n : Fin Config.channelCount, ∃ mode mode', s.channels[n].Moved mode mode' t.channels[n]) : s.ValidWithin t := by
  intro n hn
  obtain ⟨_, _, hm⟩ := h n
  exact ⟨hm.valid ▸ hn, hm.cfg⟩

/-- What an effect can do to the keys of valid entries and to the Miss List: a miss, an install, or no new key and records that
stay or all leave. -/
theorem Effect.keys_cases {i : Instr} {b u : State} (h : Effect i b u) :
    (∃ c : Cell, (∀ n : Fin Config.channelCount, b.channels[n].valid = true → b.channels[n].cfg.key ≠ c.key)
        ∧ u.channels = b.channels ∧ u.missList = missUpdate c.key b.missList)
      ∨ (∃ n cfg e, b.keyHolder n cfg = none ∧ e.cfg = cfg ∧ u.channels = b.channels.set n e
        ∧ u.missList = missRemove cfg.key b.missList)
      ∨ (b.ValidWithin u ∧ u.missList.Sublist b.missList) := by
  have quiet : ∀ u : State, u.channels = b.channels → u.missList = b.missList →
      b.ValidWithin u ∧ u.missList.Sublist b.missList :=
    fun u hc hm => ⟨.of_channels hc, hm ▸ .refl _⟩
  cases h with
  | tables ht =>
    refine .inr (.inr ⟨.of_moved fun n => ⟨_, _, ht.channel n⟩, ?_⟩)
    rw [ht.sameRest.missList]
  | coldReset edge =>
    refine .inr (.inr ⟨fun n hn => ?_, List.nil_sublist _⟩)
    simp [State.coldCondition, State.reset, Channel.coldReset] at hn
  | warmReset =>
    refine .inr (.inr ⟨.of_moved fun n => ⟨b.settings.mode, b.settings.mode, ?_⟩, List.nil_sublist _⟩)
    rw [b.warmReset_channels, mapTable_fin]
    exact Channel.moved_warmReset b.settings.mode _
  | miss c hkey =>
    obtain ⟨fifo, lost, hmiss⟩ := b.takeMiss_spec c
    exact .inl ⟨c, hkey, by rw [hmiss], by rw [hmiss]⟩
  | clearMiss => exact .inr (.inr ⟨.of_channels rfl, List.nil_sublist _⟩)
  | setPart p =>
    obtain ⟨f, g, hf, -, hset⟩ := b.withSettings_spec p
    rw [hset]
    refine .inr (.inr ⟨.of_moved fun n => ⟨b.settings.mode, p.mode, ?_⟩, .refl _⟩)
    rw [mapTable_fin]
    exact hf _
  | installChannel n cfg _ _ _ hc =>
    obtain ⟨e, q, pin, hkind, -, hinstall⟩ := b.installChannel_spec n cfg
    have hcfg : e.cfg = cfg := by rcases hkind with ⟨-, rfl⟩ | rfl <;> rfl
    rw [hinstall]
    exact .inr (.inl ⟨n, cfg, e, (State.channelChecks_eq_none hc).2, hcfg, rfl, rfl⟩)
  | installLoop k cfg =>
    obtain ⟨l, q, pin, -, -, hinstall⟩ := b.installLoop_spec k cfg
    rw [hinstall]
    exact .inr (.inr (quiet _ rfl rfl))
  | removeChannel n =>
    refine .inr (.inr ⟨fun m hm => ?_, .refl _⟩)
    have hset : ((b.updateChannel n Channel.remove).withdrawChannel n).channels = b.channels.set n b.channels[n].remove := rfl
    rw [hset, getElem_set_table] at hm ⊢
    split at hm
    · cases hm
    · next hmn => exact ⟨hm, by rw [if_neg hmn]⟩
  | emptyBuffer | loadChannel | loadLoop | setChannel | setLoop | commit | scanRefused | removeLoop | freeze =>
    exact .inr (.inr (quiet _ rfl rfl))

/-- Settles O54: an install finds its key held by no other entry and takes it out of the Miss List; a miss records a key that no
valid entry holds; nothing else brings a new key. -/
theorem stepKeepsKeysAndMissList : Obligations.StepKeepsKeysAndMissList := by
  intro s t hs h
  refine step_keeps (P := fun s => s.KeysDistinct ∧ s.MissSound) (fun s t ht hs => ?_) (fun i b u he hb => ?_)
    (fun s hs => ?_) hs h
  · obtain ⟨-, hchannels, hlist, -⟩ := State.content_eq_iff.1 ht
    have within : s.ValidWithin t := .of_channels hchannels
    exact ⟨within.keysDistinct hs.1, within.missSound (hlist ▸ .refl _) hs.2⟩
  · rcases he.keys_cases with ⟨c, hkey, hc, hl⟩ | ⟨n, cfg, e, hholder, hcfg, hc, hl⟩ | ⟨hwithin, hl⟩
    · exact ⟨(State.ValidWithin.of_channels hc).keysDistinct hb.1, State.missSound_missUpdate hb.2 hkey hc hl⟩
    · exact ⟨State.keysDistinct_install hb.1 hholder hcfg hc, State.missSound_install hb.2 hcfg hc hl⟩
    · exact ⟨hwithin.keysDistinct hb.1, hwithin.missSound hl hb.2⟩
  · have within : s.ValidWithin s.countBoundary := by
      refine .of_moved fun n => ⟨s.settings.mode, s.settings.mode, ?_⟩
      rw [s.countBoundary_channels, mapTable_fin]
      exact Channel.moved_count _ _
    exact ⟨within.keysDistinct hs.1, within.missSound (.refl _) hs.2⟩

end Sys2Proof.Machine

/-! ## O39: the writes of the edit fields and of the settings -/

namespace Sys2Proof.Machine

/-! ### When a value is written -/

theorem writeNat_eq {α : Type} (lo hi : Nat) (v : Int) (set : Nat → α) :
    writeNat lo hi v set = if (lo : Int) ≤ v ∧ v ≤ hi then .written (set v.toNat) else .badValue := rfl

theorem writeYesNo_eq {α : Type} (v : Int) (set : Bool → α) :
    writeYesNo v set = if 0 ≤ v ∧ v ≤ 1 then .written (set (decide (v = 1))) else .badValue := by
  unfold writeYesNo
  rw [writeNat_eq]
  by_cases h : 0 ≤ v ∧ v ≤ 1
  · have : (v.toNat == 1) = decide (v = 1) := by
      rw [Bool.eq_iff_iff]
      simp only [beq_iff_eq, decide_eq_true_eq]
      omega
    simp [h, this]
  · simp [h]

/-- A code of two members. -/
theorem writeCode_two {α β : Type} (v : Int) (zero one : β) (set : β → α) :
    writeCode (if v = 0 then some zero else if v = 1 then some one else none) set
      = if 0 ≤ v ∧ v ≤ 1 then .written (set (if v = 0 then zero else one)) else .badValue := by
  by_cases h0 : v = 0
  · simp [h0, writeCode]
  · by_cases h1 : v = 1
    · simp [h1, writeCode]
    · have : ¬(0 ≤ v ∧ v ≤ 1) := by omega
      simp only [h0, h1, this, if_false, writeCode]

theorem writeCode_policy {α : Type} (v : Int) (set : Policy → α) :
    writeCode (policyOfCode v) set
      = if 0 ≤ v ∧ v ≤ 3 then
          .written (set (if v = 0 then .raw else if v = 1 then .conditioned else if v = 2 then .onChange else .suppress))
        else .badValue := by
  unfold policyOfCode
  by_cases h : 0 ≤ v ∧ v ≤ 3
  · obtain ⟨hlo, hhi⟩ := h
    interval_cases v <;> rfl
  · have : v ≠ 0 ∧ v ≠ 1 ∧ v ≠ 2 ∧ v ≠ 3 := by omega
    obtain ⟨h0, h1, h2, h3⟩ := this
    simp only [h, h0, h1, h2, h3, if_false, writeCode]

theorem channelOfInt_natCast (n : Fin 128) : channelOfInt (n : Nat) = some n := by
  simp [channelOfInt, channelOfNat, Config.channelCount]

theorem channelOfInt_eq_none {v : Int} (h : v < 0 ∨ 127 < v) : channelOfInt v = none := by
  unfold channelOfInt channelOfNat Config.channelCount
  split
  · rw [dif_neg (by omega)]
  · rfl

theorem channelFieldsAreWrittenInRange : Clause.ChannelFieldsAreWrittenInRange := by
  intro cfg v
  dsimp only
  refine ⟨rfl, rfl, rfl, rfl, rfl, rfl, rfl, rfl, rfl, writeCode_two v _ _ _, writeCode_policy v _, rfl, rfl, rfl,
    writeYesNo_eq v _, fun f hf => ?_, fun f hf => ?_⟩
  · rcases hf with rfl | rfl | ⟨hlo, hhi⟩ | rfl
    · rfl
    · rfl
    · interval_cases f <;> rfl
    · rfl
  · unfold ChannelConfig.write
    split
    case h_27 => rfl
    all_goals omega

theorem loopFieldsAreWrittenInRange : Clause.LoopFieldsAreWrittenInRange := by
  intro cfg v
  dsimp only
  refine ⟨by simp only [LoopConfig.write, writeYesNo_eq], fun n hn => ?_, fun hv => ?_, rfl, rfl, writeCode_two v _ _ _,
    rfl, rfl, rfl, rfl, rfl, rfl, rfl, rfl, rfl, rfl, rfl, rfl, fun f hf => ?_, fun f hf => ?_⟩
  · simp only [LoopConfig.write, hn, channelOfInt_natCast, writeCode]
  · simp only [LoopConfig.write, channelOfInt_eq_none hv, writeCode]
  · rcases hf with rfl | ⟨hlo, hhi⟩ | rfl
    · rfl
    · interval_cases f <;> rfl
    · rfl
  · unfold LoopConfig.write
    split
    case h_25 => rfl
    all_goals omega

theorem settingsAreWrittenInRange : Clause.SettingsAreWrittenInRange := by
  intro p v
  dsimp only
  refine ⟨writeCode_two v _ _ _, writeCode_two v _ _ _, rfl, rfl, rfl, writeYesNo_eq v _, fun f hf => ?_, fun f hf => ?_⟩
  · rcases hf with hf | ⟨hlo, hhi⟩
    · interval_cases f <;> rfl
    · interval_cases f <;> rfl
  · unfold Settings.write
    split
    case h_22 => rfl
    all_goals omega

/-! ### What has been written -/

theorem writeInt_eq_written {α : Type} {lo hi v : Int} {set : Int → α} {r : α} (h : writeInt lo hi v set = .written r) :
    lo ≤ v ∧ v ≤ hi ∧ r = set v := by
  unfold writeInt at h
  split at h
  · next hv =>
    cases h
    exact ⟨hv.1, hv.2, rfl⟩
  · cases h

theorem writeNat_eq_written {α : Type} {lo hi : Nat} {v : Int} {set : Nat → α} {r : α}
    (h : writeNat lo hi v set = .written r) : ∃ w : Nat, v = w ∧ lo ≤ w ∧ w ≤ hi ∧ r = set w := by
  obtain ⟨hlo, hhi, hr⟩ := writeInt_eq_written h
  exact ⟨v.toNat, by omega, by omega, by omega, hr⟩

theorem writeYesNo_eq_written {α : Type} {v : Int} {set : Bool → α} {r : α} (h : writeYesNo v set = .written r) :
    ∃ b, v = yesNo b ∧ r = set b := by
  obtain ⟨w, rfl, -, hw, rfl⟩ := writeNat_eq_written h
  interval_cases w <;> exact ⟨_, rfl, rfl⟩

theorem writeCode_eq_written {α β : Type} {member : Option β} {set : β → α} {r : α}
    (h : writeCode member set = .written r) : ∃ m, member = some m ∧ r = set m := by
  cases member with
  | some m =>
    cases h
    exact ⟨m, rfl, rfl⟩
  | none => cases h

theorem eq_code_of_tripModeOfCode {v : Int} {m : TripMode} (h : tripModeOfCode v = some m) : v = m.code := by
  unfold tripModeOfCode at h
  split at h <;> [skip; split at h] <;> cases h <;> assumption

theorem eq_code_of_policyOfCode {v : Int} {m : Policy} (h : policyOfCode v = some m) : v = m.code := by
  unfold policyOfCode at h
  split at h <;> [skip; split at h <;> [skip; split at h <;> [skip; split at h]]] <;> cases h <;> assumption

theorem eq_code_of_senseOfCode {v : Int} {m : Sense} (h : senseOfCode v = some m) : v = m.code := by
  unfold senseOfCode at h
  split at h <;> [skip; split at h] <;> cases h <;> assumption

theorem eq_code_of_modeOfCode {v : Int} {m : Mode} (h : modeOfCode v = some m) : v = m.code := by
  unfold modeOfCode at h
  split at h <;> [skip; split at h] <;> cases h <;> assumption

theorem eq_code_of_missPolicyOfCode {v : Int} {m : MissPolicy} (h : missPolicyOfCode v = some m) : v = m.code := by
  unfold missPolicyOfCode at h
  split at h <;> [skip; split at h] <;> cases h <;> assumption

theorem eq_of_channelOfInt {v : Int} {n : Fin Config.channelCount} (h : channelOfInt v = some n) : v = (n : Nat) := by
  unfold channelOfInt channelOfNat at h
  split at h
  · split at h
    · cases h
      exact (Int.toNat_of_nonneg (by assumption)).symm
    · cases h
  · cases h

/-! ### The tables of fields as lists -/

/-- A list with one member set: that number reads the new member, every other number reads as before. -/
theorem getD_set {α : Type} {l : List α} {f : Nat} (hf : f < l.length) (x d : α) :
    (l.set f x).getD f d = x ∧ ∀ g, g ≠ f → (l.set f x).getD g d = l.getD g d := by
  constructor
  · simp [List.getD_eq_getElem?_getD, hf]
  · intro g hg
    simp [List.getD_eq_getElem?_getD, List.getElem?_set_ne hg.symm]

/-- The fields of a channel record in the order of their numbers. -/
def ChannelConfig.fields (cfg : ChannelConfig) : List (Option Int) :=
  [none, some cfg.node, some cfg.point, some cfg.offset, some cfg.gain, some cfg.high, some cfg.low, some cfg.hyst,
    some cfg.trips, some cfg.clears, some cfg.mode.code, some cfg.policy.code, some cfg.deadband, some cfg.refresh,
    some cfg.silence, some (yesNo cfg.alert)]

theorem ChannelConfig.field_eq (cfg : ChannelConfig) (g : Nat) : cfg.field g = cfg.fields.getD g none := by
  unfold ChannelConfig.field
  split
  case h_16 =>
    simp only [imp_false] at *
    obtain rfl | hg : g = 0 ∨ 16 ≤ g := by omega
    · rfl
    · exact (List.getD_eq_default _ _ hg).symm
  all_goals rfl

/-- A channel record with one field set reads as that value there, and as before elsewhere. -/
theorem ChannelConfig.field_of_fields_set {cfg cfg' : ChannelConfig} {f : Nat} {v : Int} (hf : f < 16)
    (h : cfg'.fields = cfg.fields.set f (some v)) :
    cfg'.field f = some v ∧ ∀ g, g ≠ f → cfg'.field g = cfg.field g := by
  simp only [ChannelConfig.field_eq, h]
  exact getD_set hf _ _

/-- The fields of a loop record in the order of their numbers. -/
def LoopConfig.fields (cfg : LoopConfig) : List (Option Int) :=
  [some (yesNo cfg.enable), some (cfg.source : Nat), some cfg.actNode, some cfg.actPoint, some cfg.sense.code, some cfg.target,
    some cfg.tolerance, some cfg.step, some cfg.upInterval, some cfg.downInterval, some cfg.startDuty, some cfg.stopDuty,
    some cfg.maxDuty, some cfg.failsafeDuty, some cfg.stopTime, some cfg.refresh, some cfg.satLimit]

theorem LoopConfig.field_eq (cfg : LoopConfig) (g : Nat) : cfg.field g = cfg.fields.getD g none := by
  unfold LoopConfig.field
  split
  case h_18 =>
    simp only [imp_false] at *
    have hg : 17 ≤ g := by omega
    exact (List.getD_eq_default _ _ hg).symm
  all_goals rfl

/-- A loop record with one field set reads as that value there, and as before elsewhere. -/
theorem LoopConfig.field_of_fields_set {cfg cfg' : LoopConfig} {f : Nat} {v : Int} (hf : f < 17)
    (h : cfg'.fields = cfg.fields.set f (some v)) :
    cfg'.field f = some v ∧ ∀ g, g ≠ f → cfg'.field g = cfg.field g := by
  simp only [LoopConfig.field_eq, h]
  exact getD_set hf _ _

/-- The part fields in the order of their numbers. -/
def State.partFields (s : State) : List FieldValue :=
  [.value Config.ident, .value Config.stepping, .value s.settings.mode.code, .value s.settings.missPolicy.code,
    .value s.settings.resend, .value s.settings.retry, .value s.settings.sessionTimeout, .value (yesNo s.settings.alertLink),
    .value (yesNo s.frozen), .value s.session.code, .value s.north.link.code, .value s.south.link.code, .value s.north.crc,
    .value s.south.crc, .value s.northOverflow, .value s.southOverflow, .value s.misses, .value s.reqDiscards,
    .value s.abandoned, .value s.alarms.length, .value s.nextSeq]

theorem State.partField_eq (s : State) (g : Nat) : s.partField g = s.partFields.getD g .unlisted := by
  unfold State.partField
  split
  case h_22 =>
    simp only [imp_false] at *
    have hg : 21 ≤ g := by omega
    exact (List.getD_eq_default _ _ hg).symm
  all_goals rfl

/-- A part with one part field set reads as that value there, and as before elsewhere. -/
theorem State.partField_of_partFields_set {s t : State} {f : Nat} {v : Int} (hf : f < 21)
    (h : t.partFields = s.partFields.set f (.value v)) :
    t.partField f = .value v ∧ ∀ g, g ≠ f → t.partField g = s.partField g := by
  simp only [State.partField_eq, h]
  exact getD_set hf _ _

/-! ### Reading back -/

/-- A write into a channel record sets its field in the table of fields, and keeps the record in range. -/
theorem ChannelConfig.write_eq_written {cfg cfg' : ChannelConfig} {f : Nat} {v : Int} (h : cfg.write f v = .written cfg') :
    f < 16 ∧ cfg'.fields = cfg.fields.set f (some v) ∧ (cfg.InRange → cfg'.InRange) := by
  unfold ChannelConfig.write at h
  split at h
  case h_1 | h_2 | h_7 | h_8 | h_9 | h_12 | h_13 | h_14 =>
    obtain ⟨w, rfl, hlo, hhi, rfl⟩ := writeNat_eq_written h
    refine ⟨by decide, rfl, fun hcfg => ?_⟩
    simp only [ChannelConfig.InRange, InWord] at hcfg ⊢
    omega
  case h_3 | h_4 | h_5 | h_6 =>
    obtain ⟨hlo, hhi, rfl⟩ := writeInt_eq_written h
    refine ⟨by decide, rfl, fun hcfg => ?_⟩
    simp only [ChannelConfig.InRange, InWord] at hcfg ⊢
    omega
  case h_10 =>
    obtain ⟨m, hm, rfl⟩ := writeCode_eq_written h
    exact ⟨by decide, by rw [eq_code_of_tripModeOfCode hm]; rfl, fun hcfg => hcfg⟩
  case h_11 =>
    obtain ⟨m, hm, rfl⟩ := writeCode_eq_written h
    exact ⟨by decide, by rw [eq_code_of_policyOfCode hm]; rfl, fun hcfg => hcfg⟩
  case h_15 =>
    obtain ⟨b, rfl, rfl⟩ := writeYesNo_eq_written h
    exact ⟨by decide, rfl, fun hcfg => hcfg⟩
  all_goals cases h

/-- A write into a loop record sets its field in the table of fields, and keeps the record in range. -/
theorem LoopConfig.write_eq_written {cfg cfg' : LoopConfig} {f : Nat} {v : Int} (h : cfg.write f v = .written cfg') :
    f < 17 ∧ cfg'.fields = cfg.fields.set f (some v) ∧ (cfg.InRange → cfg'.InRange) := by
  unfold LoopConfig.write at h
  split at h
  case h_1 =>
    obtain ⟨b, rfl, rfl⟩ := writeYesNo_eq_written h
    exact ⟨by decide, rfl, fun hcfg => hcfg⟩
  case h_2 =>
    obtain ⟨m, hm, rfl⟩ := writeCode_eq_written h
    exact ⟨by decide, by rw [eq_of_channelOfInt hm]; rfl, fun hcfg => hcfg⟩
  case h_5 =>
    obtain ⟨m, hm, rfl⟩ := writeCode_eq_written h
    exact ⟨by decide, by rw [eq_code_of_senseOfCode hm]; rfl, fun hcfg => hcfg⟩
  case h_6 =>
    obtain ⟨hlo, hhi, rfl⟩ := writeInt_eq_written h
    refine ⟨by decide, rfl, fun hcfg => ?_⟩
    simp only [LoopConfig.InRange, InWord] at hcfg ⊢
    omega
  case h_18 | h_19 | h_20 | h_21 | h_22 | h_23 | h_24 | h_25 => cases h
  all_goals
    obtain ⟨w, rfl, hlo, hhi, rfl⟩ := writeNat_eq_written h
    refine ⟨by decide, rfl, fun hcfg => ?_⟩
    simp only [LoopConfig.InRange, InWord] at hcfg ⊢
    omega

/-- A write of a setting sets its part field, and keeps the settings in range. -/
theorem Settings.write_eq_written {s : State} {p : Settings} {f : Nat} {v : Int} (h : s.settings.write f v = .written p) :
    f < 21 ∧ ({ s with settings := p } : State).partFields = s.partFields.set f (.value v)
      ∧ (s.settings.InRange → p.InRange) := by
  unfold Settings.write at h
  split at h
  case h_1 =>
    obtain ⟨m, hm, rfl⟩ := writeCode_eq_written h
    exact ⟨by decide, by rw [eq_code_of_modeOfCode hm]; rfl, fun hp => hp⟩
  case h_2 =>
    obtain ⟨m, hm, rfl⟩ := writeCode_eq_written h
    exact ⟨by decide, by rw [eq_code_of_missPolicyOfCode hm]; rfl, fun hp => hp⟩
  case h_3 | h_4 | h_5 =>
    obtain ⟨w, rfl, hlo, hhi, rfl⟩ := writeNat_eq_written h
    refine ⟨by decide, rfl, fun hp => ?_⟩
    simp only [Settings.InRange] at hp ⊢
    omega
  case h_6 =>
    obtain ⟨b, rfl, rfl⟩ := writeYesNo_eq_written h
    exact ⟨by decide, rfl, fun hp => hp⟩
  all_goals cases h

theorem writtenFieldReadsBack : Clause.WrittenFieldReadsBack := by
  refine ⟨fun cfg cfg' f v h => ?_, fun cfg cfg' f v h => ?_, fun s p f v h => ?_⟩
  · obtain ⟨hf, hset, -⟩ := ChannelConfig.write_eq_written h
    exact ChannelConfig.field_of_fields_set hf hset
  · obtain ⟨hf, hset, -⟩ := LoopConfig.write_eq_written h
    exact LoopConfig.field_of_fields_set hf hset
  · obtain ⟨hf, hset, -⟩ := Settings.write_eq_written h
    exact State.partField_of_partFields_set hf hset

/-- Settles O39: the writes of each table give its ranges, and each sets one member of the table of fields. -/
theorem fieldWritesChangeOneField : Obligations.FieldWritesChangeOneField :=
  ⟨channelFieldsAreWrittenInRange, loopFieldsAreWrittenInRange, settingsAreWrittenInRange, writtenFieldReadsBack⟩

end Sys2Proof.Machine

/-! ## O60: the ranges of the stored numbers -/

namespace Sys2Proof.Machine

/-! ### The Alarm Queue -/

/-- Every record of the Alarm Queue is in range (R55). -/
def State.AlarmsInRange (s : State) : Prop := ∀ r ∈ s.alarms, r.InRange

/-- A record appended for the alarm is in range. -/
def Alarm.InRange (a : Alarm) : Prop := (AlarmRecord.fresh 0 a).InRange

/-- The range of a record depends on what it reports only. -/
theorem AlarmRecord.InRange.of_reports {r o : AlarmRecord} (h : o.InRange) (hk : r.kind = o.kind) (hs : r.subject = o.subject)
    (hv : r.value = o.value) : r.InRange := by
  unfold AlarmRecord.InRange at h ⊢
  rw [hk, hs, hv]
  exact h

theorem ReportsOf.inRange {q q' : List AlarmRecord} (h : ReportsOf q q') (hq : ∀ r ∈ q, r.InRange) :
    ∀ r ∈ q', r.InRange := by
  intro r hr
  obtain ⟨o, ho, hk, hs, hv⟩ := h r hr
  exact (hq o ho).of_reports hk hs hv

/-- The LOST record stays in range when one more alarm is counted: its VALUE stops at 32767 (R58). -/
theorem AlarmRecord.inRange_countLost {r : AlarmRecord} (alert : Bool) (hk : r.kind = .lost) (h : r.InRange) :
    (r.countLost alert).InRange := by
  have report : (r.countLost alert).kind = r.kind ∧ (r.countLost alert).subject = r.subject
      ∧ (r.countLost alert).value = min (r.value + 1) 32767 := by
    unfold AlarmRecord.countLost
    dsimp only
    split <;> exact ⟨rfl, rfl, rfl⟩
  obtain ⟨hkind, hsubject, hvalue⟩ := report
  simp only [AlarmRecord.InRange, hkind, hsubject, hvalue, hk] at h ⊢
  obtain ⟨hnone, hlo, hhi⟩ := h
  exact ⟨hnone, by omega, by omega⟩

/-- The admission of an alarm in range keeps the queue in range (R56 to R58). -/
theorem State.AlarmsInRange.takeAlarm {s : State} {a : Alarm} (hs : s.AlarmsInRange) (ha : a.InRange) :
    (s.takeAlarm a).1.AlarmsInRange := by
  have appended : ∀ {a : Alarm}, a.InRange → (s.appendAlarm a).AlarmsInRange := by
    intro a ha r hr
    rcases List.mem_append.1 hr with hr | hr
    · exact hs r hr
    · rw [List.mem_singleton.1 hr]
      exact ha
  rcases s.takeAlarm_cases a with ⟨older, r, younger, hq, hsub, habs, -, h⟩ | ⟨-, h⟩ | ⟨-, -, h⟩ | ⟨-, -, h⟩ <;> rw [h]
  · intro x hx
    rcases List.mem_append.1 hx with hx | hx
    · exact hs x (by simp [hq, hx])
    · rcases List.mem_cons.1 hx with rfl | hx
      · have hkind : r.kind = a.kind := by
          simp only [AlarmRecord.absorbs, Bool.and_eq_true, beq_iff_eq] at habs
          exact habs.1.1
        exact ha.of_reports hkind hsub rfl
      · exact hs x (by simp [hq, hx])
  · exact appended ha
  · intro x hx
    obtain ⟨r, hr, rfl⟩ := List.mem_map.1 hx
    split
    · next hk => exact AlarmRecord.inRange_countLost _ hk (hs r hr)
    · exact hs r hr
  · exact appended ⟨rfl, Int.le_refl 1, show (1 : Int) ≤ 32767 by decide⟩

theorem State.AlarmsInRange.of_alarms {s t : State} (hs : s.AlarmsInRange) (h : t.alarms = s.alarms) : t.AlarmsInRange := by
  unfold State.AlarmsInRange
  rw [h]
  exact hs

/-- A channel alarm of a KIND of the evaluator, with a 16-bit VALUE (R55). -/
theorem State.inRange_channelAlarm (s : State) (n : Fin Config.channelCount) {kind : AlarmKind} {v : Int}
    (hk : kind = .high ∨ kind = .low ∨ kind = .cleared ∨ kind = .stale ∨ kind = .resumed) (hv : InWord v) :
    (s.channelAlarm n kind v).InRange := by
  rcases hk with rfl | rfl | rfl | rfl | rfl <;> exact ⟨⟨n, rfl⟩, hv⟩

theorem State.AlarmsInRange.trip {s : State} (hs : s.AlarmsInRange) (n : Fin Config.channelCount) (side : Side) {v : Int}
    (hv : InWord v) : (s.trip n side.tripped side.kind v).AlarmsInRange := by
  have hk : side.kind = .high ∨ side.kind = .low := by cases side <;> simp [Side.kind]
  have entered : ∀ f, (s.updateDyn n f).AlarmsInRange := fun f => hs
  exact (entered _).takeAlarm (State.inRange_channelAlarm _ n (by tauto) hv)

theorem State.AlarmsInRange.returnToNormal {s : State} (hs : s.AlarmsInRange) (n : Fin Config.channelCount) {v : Int}
    (hv : InWord v) : (s.returnToNormal n v).AlarmsInRange := by
  have back : ∀ f, (s.updateDyn n f).AlarmsInRange := fun f => hs
  exact (back _).takeAlarm (State.inRange_channelAlarm _ n (by simp) hv)

theorem State.AlarmsInRange.evalSample {s : State} (hs : s.AlarmsInRange) (n : Fin Config.channelCount) {v : Int}
    (hv : InWord v) : (s.evalSample n v).AlarmsInRange := by
  obtain ⟨b, hb, hcases⟩ := s.evalSample_cases n v
  have hbase : b.AlarmsInRange := by
    rcases hb with ⟨-, rfl⟩ | ⟨-, rfl⟩
    · exact hs
    · exact hs.takeAlarm (State.inRange_channelAlarm _ n (by simp) hv)
  rcases hcases with ⟨f, h, -⟩ | ⟨side, h⟩ | ⟨b', hb', h⟩ <;> rw [h]
  · exact hbase
  · exact hbase.trip n side hv
  · rcases hb' with rfl | ⟨run, rfl⟩
    · exact hbase.returnToNormal n hv
    · have counted : (b.updateDyn n (fun d => { d with run := run })).AlarmsInRange := hbase
      exact counted.returnToNormal n hv

theorem State.AlarmsInRange.takeHit {s : State} (hs : s.AlarmsInRange) (n : Fin Config.channelCount) (c : Cell) :
    (s.takeHit n c).AlarmsInRange := by
  have recorded : ∀ f, (s.updateDyn n f).AlarmsInRange := fun f => hs
  have evaluated := (recorded (fun d => { d with last := some (s.channels[n].cfg.condition c.value)
                                                 lastRaw := some c.value })).evalSample n
    (inWord_condition s.channels[n].cfg c.value)
  refine evaluated.of_alarms ?_
  unfold State.takeHit
  dsimp only
  obtain ⟨d, fifo, lost, -, h⟩ := State.forwarded_forward _ n s.channels[n].dyn.state
    (s.channels[n].cfg.condition c.value) c
  rw [h]
  simp [State.evaluate]

theorem inWord_lastOrZero {d : ChannelDynamic} (h : d.InRange) : InWord (d.last.getD 0) := by
  obtain ⟨-, hlast, -⟩ := h
  cases hd : d.last with
  | some v => exact hlast v hd
  | none => exact ⟨by decide, by decide⟩

theorem State.AlarmsInRange.deadlineExpires {s : State} (hs : s.AlarmsInRange) (n : Fin Config.channelCount)
    (hd : s.channels[n].dyn.InRange) : (s.deadlineExpires n).AlarmsInRange := by
  unfold State.deadlineExpires
  dsimp only
  split
  · exact hs
  · unfold State.enterStale
    have gone : ∀ f, ((s.updateChannel n Channel.stopDeadline).updateDyn n f).AlarmsInRange := fun f => hs
    have value : (s.updateChannel n Channel.stopDeadline).channels[n].dyn = s.channels[n].dyn := by
      simp [Channel.stopDeadline]
    dsimp only
    rw [value]
    exact State.AlarmsInRange.of_alarms
      ((gone _).takeAlarm (State.inRange_channelAlarm _ n (by simp) (inWord_lastOrZero hd))) rfl

theorem State.AlarmsInRange.acknowledge {s : State} (hs : s.AlarmsInRange) (n : Fin Config.channelCount)
    (hd : s.channels[n].dyn.InRange) : (s.acknowledge n).AlarmsInRange := by
  have acked : ∀ f, (s.updateDyn n f).AlarmsInRange := fun f => hs
  unfold State.acknowledge
  dsimp only
  split
  · exact (acked _).returnToNormal n (inWord_lastOrZero hd)
  · exact hs

theorem State.AlarmsInRange.linkAlarm {s : State} (hs : s.AlarmsInRange) (p : Port) (link : LinkState) :
    (s.raise (s.linkAlarm p link)).AlarmsInRange := by
  refine hs.takeAlarm ⟨⟨p, rfl⟩, ?_⟩
  cases link
  · exact .inl rfl
  · exact .inr rfl

/-- What a port's return does to the records: the north port's become NEW again (R66). -/
theorem State.reportsOf_portReturns (s : State) (p : Port) : ReportsOf s.alarms (s.portReturns p).alarms := by
  cases p with
  | north => exact .map AlarmRecord.linkBack_reports _
  | south => exact .refl _

/-- What a port's loss does to the records: the north port's resend timers stop (R65). -/
theorem State.reportsOf_portLost (s : State) (p : Port) : ReportsOf s.alarms (s.portLost p).alarms := by
  cases p with
  | north => exact ReportsOf.map (f := AlarmRecord.linkLost) (fun _ => ⟨rfl, rfl, rfl⟩) _
  | south => exact .refl _

theorem State.AlarmsInRange.enterSync {s : State} (hs : s.AlarmsInRange) (p : Port) : (s.enterSync p).AlarmsInRange := by
  have received : ∀ r, (s.withReceiver p r).AlarmsInRange := fun r => by cases p <;> exact hs
  exact State.AlarmsInRange.linkAlarm (s := (s.withReceiver p _).portReturns p)
    ((State.reportsOf_portReturns _ p).inRange (received _)) p .sync

theorem State.AlarmsInRange.enterHunt {s : State} (hs : s.AlarmsInRange) (p : Port) : (s.enterHunt p).AlarmsInRange := by
  have received : ∀ r, (s.withReceiver p r).AlarmsInRange := fun r => by cases p <;> exact hs
  exact State.AlarmsInRange.linkAlarm (s := (s.withReceiver p _).portLost p)
    ((State.reportsOf_portLost _ p).inRange (received _)) p .hunt

theorem State.AlarmsInRange.stepLoop {s : State} (hs : s.AlarmsInRange) (k : Fin Config.loopCount) (d : Demand)
    (hl : s.loops[k].InRange) : (s.stepLoop k d).AlarmsInRange := by
  have stepped : ∀ f, (s.updateLoop k f).AlarmsInRange := fun f => hs
  unfold State.stepLoop
  dsimp only
  split
  · refine (stepped _).takeAlarm ⟨⟨k, rfl⟩, Int.natCast_nonneg _, ?_⟩
    exact Int.ofNat_le.2 ((Loop.moved_stepWith _ d _).range hl).1
  · exact hs

theorem State.reportsOf_removeTripRecord (s : State) (n : Fin Config.channelCount) :
    ReportsOf s.alarms (s.removeTripRecord n).alarms := by
  unfold State.removeTripRecord
  split
  · exact .filter _ _
  · exact .refl _

/-- The running of the part keeps the queue in range, with entries and loops in range. -/
theorem TableEffect.alarmsInRange {b u : State} (h : TableEffect b u) (hb : b.AlarmsInRange)
    (hd : ∀ n : Fin Config.channelCount, b.channels[n].dyn.InRange) (hl : ∀ k : Fin Config.loopCount, b.loops[k].InRange) :
    u.AlarmsInRange := by
  have removed : ∀ seq, (b.removeRecord seq).AlarmsInRange := fun seq => (ReportsOf.filter b.alarms _).inRange hb
  cases h with
  | linkUp p => exact hb.enterSync p
  | linkDown p => exact hb.enterHunt p
  | hit n c => exact hb.takeHit n c
  | stepLoop k d => exact hb.stepLoop k d (hl k)
  | alarms q hq => exact hq.inRange hb
  | deadline n => exact hb.deadlineExpires n (hd n)
  | abandon seq => exact removed seq
  | ackRecord seq n => exact (removed seq).acknowledge n (hd n)
  | ackEntry n =>
    have tripGone : (b.removeTripRecord n).AlarmsInRange := (b.reportsOf_removeTripRecord n).inRange hb
    refine tripGone.acknowledge n ?_
    rw [b.removeTripRecord_channels n]
    exact hd n
  | nothing | loop | forwardRefresh => exact hb

/-! ### Every effect -/

theorem Effect.alarmsInRange {i : Instr} {b u : State} (h : Effect i b u) (hb : b.RangesSound) : u.AlarmsInRange := by
  obtain ⟨-, -, hchannels, hloops, halarms, -⟩ := hb
  cases h with
  | tables ht => exact ht.alarmsInRange halarms (fun n => (hchannels n).2) hloops
  | coldReset => exact fun r hr => absurd hr List.not_mem_nil
  | warmReset =>
    unfold State.AlarmsInRange
    rw [b.warmReset_alarms]
    exact fun r hr => absurd hr List.not_mem_nil
  | miss c =>
    obtain ⟨fifo, lost, hmiss⟩ := b.takeMiss_spec c
    rw [hmiss]
    exact halarms
  | setPart p =>
    obtain ⟨f, g, -, -, hset⟩ := b.withSettings_spec p
    rw [hset]
    exact halarms
  | installChannel n cfg =>
    obtain ⟨e, q, pin, -, hq, hinstall⟩ := b.installChannel_spec n cfg
    rw [hinstall]
    exact hq.inRange halarms
  | installLoop k cfg =>
    obtain ⟨l, q, pin, -, hq, hinstall⟩ := b.installLoop_spec k cfg
    rw [hinstall]
    exact hq.inRange halarms
  | removeChannel | removeLoop => exact (ReportsOf.filter b.alarms _).inRange halarms
  | clearMiss | emptyBuffer | loadChannel | loadLoop | setChannel | setLoop | commit | scanRefused | freeze => exact halarms

/-- Every effect keeps the edit buffer in range: it is emptied, loaded from a table, or written in range (R162 to R164). -/
theorem Effect.editBufferInRange {i : Instr} {b u : State} (h : Effect i b u) (hb : b.RangesSound) : u.editBuffer.InRange := by
  obtain ⟨-, hbuffer, hchannels, hloops, -, -⟩ := hb
  cases h with
  | tables ht =>
    rw [ht.sameRest.editBuffer]
    exact hbuffer
  | warmReset =>
    rw [b.warmReset_editBuffer]
    exact trivial
  | coldReset | emptyBuffer => exact trivial
  | loadChannel n => exact (hchannels n).1
  | loadLoop k => exact (hloops k).1
  | setChannel cfg cfg' _ _ hcfg hw =>
    obtain ⟨-, -, hrange⟩ := ChannelConfig.write_eq_written hw
    rw [hcfg] at hbuffer
    exact hrange hbuffer
  | setLoop cfg cfg' _ _ hcfg hw =>
    obtain ⟨-, -, hrange⟩ := LoopConfig.write_eq_written hw
    rw [hcfg] at hbuffer
    exact hrange hbuffer
  | miss c =>
    obtain ⟨fifo, lost, hmiss⟩ := b.takeMiss_spec c
    rw [hmiss]
    exact hbuffer
  | setPart p =>
    obtain ⟨f, g, -, -, hset⟩ := b.withSettings_spec p
    rw [hset]
    exact hbuffer
  | installChannel n cfg =>
    obtain ⟨e, q, pin, -, -, hinstall⟩ := b.installChannel_spec n cfg
    rw [hinstall]
    exact hbuffer
  | installLoop k cfg =>
    obtain ⟨l, q, pin, -, -, hinstall⟩ := b.installLoop_spec k cfg
    rw [hinstall]
    exact hbuffer
  | clearMiss | commit | scanRefused | removeChannel | removeLoop | freeze => exact hbuffer

theorem Settings.inRange_default : Settings.default.InRange := by
  simp [Settings.InRange, Settings.default]

/-- Every effect keeps the settings in range: they stand, are written in range, or are the defaults (R150). -/
theorem Effect.settingsInRange {i : Instr} {b u : State} (h : Effect i b u) (hb : b.settings.InRange) : u.settings.InRange := by
  cases h with
  | tables ht =>
    rw [ht.sameRest.settings]
    exact hb
  | coldReset => exact Settings.inRange_default
  | warmReset =>
    rw [b.warmReset_settings]
    exact hb
  | miss c =>
    obtain ⟨fifo, lost, hmiss⟩ := b.takeMiss_spec c
    rw [hmiss]
    exact hb
  | setPart p _ _ _ hw =>
    obtain ⟨-, -, hrange⟩ := Settings.write_eq_written hw
    obtain ⟨f, g, -, -, hset⟩ := b.withSettings_spec p
    rw [hset]
    exact hrange hb
  | installChannel n cfg =>
    obtain ⟨e, q, pin, -, -, hinstall⟩ := b.installChannel_spec n cfg
    rw [hinstall]
    exact hb
  | installLoop k cfg =>
    obtain ⟨l, q, pin, -, -, hinstall⟩ := b.installLoop_spec k cfg
    rw [hinstall]
    exact hb
  | clearMiss | emptyBuffer | loadChannel | loadLoop | setChannel | setLoop | commit | scanRefused | removeChannel | removeLoop
  | freeze => exact hb

theorem ChannelConfig.inRange_default : ChannelConfig.default.InRange := by
  simp [ChannelConfig.InRange, ChannelConfig.default, InWord]

/-- Every effect keeps every entry in range. -/
theorem Effect.channelInRange {i : Instr} {b u : State} (h : Effect i b u) (hb : b.RangesSound) (n : Fin Config.channelCount) :
    u.channels[n].cfg.InRange ∧ u.channels[n].dyn.InRange := by
  obtain ⟨-, hbuffer, hchannels, -, -, -⟩ := hb
  obtain ⟨hcfg, hdyn⟩ := hchannels n
  generalize hu : u.channels[n] = e'
  have fate := h.channel n
  rw [hu] at fate
  cases fate with
  | moved hm => exact ⟨hm.cfg ▸ hcfg, hm.range hcfg hdyn⟩
  | installed cfg _ _ _ hb _ hkind =>
    rw [hb] at hbuffer
    rcases hkind with ⟨-, rfl⟩ | rfl
    · exact ⟨hbuffer, ChannelDynamic.inRange_reinstalled _ _ hdyn⟩
    · exact ⟨hbuffer, ChannelDynamic.inRange_cleared⟩
  | removed => exact ⟨hcfg, ChannelDynamic.inRange_cleared⟩
  | reset => exact ⟨ChannelConfig.inRange_default, ChannelDynamic.inRange_cleared⟩

/-- Every effect keeps every loop in range. -/
theorem Effect.loopInRange {i : Instr} {b u : State} (h : Effect i b u) (hb : b.RangesSound) (k : Fin Config.loopCount) :
    u.loops[k].InRange := by
  obtain ⟨-, hbuffer, -, hloops, -, -⟩ := hb
  have hl := hloops k
  generalize hu : u.loops[k] = l'
  have fate := h.loop k
  rw [hu] at fate
  cases fate with
  | moved hm => exact hm.inRange hl
  | installed cfg _ _ hb hrange =>
    rw [hb] at hbuffer
    exact hrange hbuffer hl
  | removed => exact Loop.inRange_remove hl
  | reset => exact Loop.inRange_coldReset

/-- NODE has six bits and POINT three (R6). -/
theorem cellKey_le (c : Cell) : c.key.node ≤ 63 ∧ c.key.point ≤ 7 := by
  have h1 := c.b1.isLt
  have h2 := c.b2.isLt
  unfold Cell.key
  dsimp only
  omega

/-- Every effect keeps the keys of the Miss List in range. -/
theorem Effect.missKeysInRange {i : Instr} {b u : State} (h : Effect i b u)
    (hb : ∀ r ∈ b.missList, r.key.node ≤ 63 ∧ r.key.point ≤ 7) :
    ∀ r ∈ u.missList, r.key.node ≤ 63 ∧ r.key.point ≤ 7 := by
  rcases h.keys_cases with ⟨c, -, -, hlist⟩ | ⟨n, cfg, e, -, -, -, hlist⟩ | ⟨-, hlist⟩
  · rw [hlist]
    intro r hr
    rcases List.mem_cons.1 hr with rfl | hr
    · exact cellKey_le c
    · exact hb r ((missRemove_sublist _ _).subset (List.mem_of_mem_take hr))
  · rw [hlist]
    exact fun r hr => hb r ((missRemove_sublist _ _).subset hr)
  · exact fun r hr => hb r (hlist.subset hr)

/-- Settles O60: every effect, and every tick boundary, keeps each kind of stored number in its range. -/
theorem stepKeepsRangesSound : Obligations.StepKeepsRangesSound := by
  intro s t hs h
  refine step_keeps (P := State.RangesSound) (fun s t ht hs => ?_) (fun i b u he hb => ?_) (fun s hs => ?_) hs h
  · obtain ⟨hsettings, hchannels, hlist, halarms, hloops, hbuffer, -⟩ := State.content_eq_iff.1 ht
    unfold State.RangesSound
    rw [hsettings, hchannels, hlist, halarms, hloops, hbuffer]
    exact hs
  · have ⟨hsettings, _, _, _, _, hmiss⟩ := hb
    exact ⟨he.settingsInRange hsettings, he.editBufferInRange hb, he.channelInRange hb, he.loopInRange hb,
      he.alarmsInRange hb, he.missKeysInRange hmiss⟩
  · obtain ⟨hsettings, hbuffer, hchannels, hloops, halarms, hmiss⟩ := hs
    refine ⟨hsettings, hbuffer, fun n => ?_, fun k => ?_, (ReportsOf.map AlarmRecord.count_reports s.alarms).inRange halarms,
      hmiss⟩
    · rw [s.countBoundary_channels, mapTable_fin]
      exact hchannels n
    · rw [s.countBoundary_loops, mapTable_fin]
      exact (Loop.moved_count _).inRange (hloops k)

end Sys2Proof.Machine

/-! ## O14, O15, O17: the Classifier -/

namespace Sys2Proof.Machine

/-! ### Lookup (R6) -/

/-- The lookup answers a valid entry that holds the key, and only that where keys are distinct. -/
theorem State.lookup_eq_some_iff {s : State} (hs : s.KeysDistinct) {key : Key} {n : Fin Config.channelCount} :
    s.lookup key = some n ↔ s.channels[n].valid = true ∧ s.channels[n].cfg.key = key := by
  constructor
  · intro h
    have hn := (State.findChannel_eq_some.1 h).1
    simp only [Bool.and_eq_true, beq_iff_eq] at hn
    exact hn
  · rintro ⟨hv, hk⟩
    refine State.findChannel_of_unique fun m => ?_
    simp only [Bool.and_eq_true, beq_iff_eq]
    constructor
    · rintro ⟨hmv, hmk⟩
      exact hs m n hmv hv (hmk.trans hk.symm)
    · rintro rfl
      exact ⟨hv, hk⟩

/-- The lookup answers nothing exactly where no valid entry holds the key. -/
theorem State.lookup_eq_none_iff {s : State} {key : Key} :
    s.lookup key = none ↔ ∀ n : Fin Config.channelCount, s.channels[n].valid = true → s.channels[n].cfg.key ≠ key := by
  unfold State.lookup
  rw [State.findChannel_eq_none]
  refine forall_congr' fun n => ?_
  rw [Bool.and_eq_false_imp, beq_eq_false_iff_ne]

/-- Settles O15: the lookup is a search by validity and key, which distinct keys make single-valued; an installed entry has a
NODE of at least 1. -/
theorem lookupFindsTheValidEntry : Obligations.LookupFindsTheValidEntry := by
  intro s hs
  refine ⟨fun c => rfl, fun key n => State.lookup_eq_some_iff hs, fun key => State.lookup_eq_none_iff,
    fun hsound point => ?_⟩
  refine State.lookup_eq_none_iff.2 fun n hv hk => ?_
  obtain ⟨-, hinstalled, -⟩ := hsound n
  have hnode : s.channels[n].cfg.node = 0 := congrArg Key.node hk
  obtain ⟨hone, -⟩ := hinstalled hv
  omega

/-! ### A sample at the Classifier -/

/-- A good SAMPLE at the south receiver in SYNC is classified (R108, R113). -/
theorem exec_sample {s : State} {c : Cell} (h : s.Reaches .south 1 c) :
    exec (.arrival .south (.cell c)) s = .next ((s.goodTaken .south).classify c) := by
  obtain ⟨hrunning, hsync, hgood, hkind⟩ := h
  have arrived : exec (.arrival .south (.cell c)) s = happening s (fun s => s.takeArrival .south (.cell c)) := rfl
  rw [arrived, happening_of_running hrunning]
  simp only [State.receiver_south] at hsync
  simp [State.takeArrival, hgood, State.takeGood, hsync, State.dispatch, State.dispatchSouth, hkind, State.goodTaken]

theorem passModeForwardsSampleUnchanged : Clause.PassModeForwardsSampleUnchanged := by
  intro s c h hm
  have hm' : (s.goodTaken .south).settings.mode = .pass := hm
  rw [exec_sample h, State.classify, hm']

/-! ### The Miss List (R14) -/

theorem missRemove_of_absent {key : Key} {list : List MissRecord} (h : ∀ r ∈ list, r.key ≠ key) :
    missRemove key list = list :=
  List.filter_eq_self.2 fun r hr => by simpa using h r hr

theorem missHits_of_absent {key : Key} {list : List MissRecord} (h : ∀ r ∈ list, r.key ≠ key) :
    missHits key list = 0 := by
  have none : list.find? (fun r => r.key == key) = none := List.find?_eq_none.2 fun r hr => by simpa using h r hr
  rw [missHits, none]

/-- A key that the list does not hold comes to position 0 with HITS 1, and only 7 records stay behind it (R14). -/
theorem missUpdate_of_absent {key : Key} {list : List MissRecord} (h : ∀ r ∈ list, r.key ≠ key) :
    missUpdate key list = { key := key, hits := 1 } :: list.take 7 := by
  rw [missUpdate, missRemove_of_absent h, missHits_of_absent h]
  rfl

/-- A key that the list holds once comes to position 0 with one hit more (R14). -/
theorem missUpdate_of_held {key : Key} {young old : List MissRecord} {hits : Nat} (hyoung : ∀ r ∈ young, r.key ≠ key)
    (hold : ∀ r ∈ old, r.key ≠ key) (hlen : (young ++ old).length ≤ 7) :
    missUpdate key (young ++ { key := key, hits := hits } :: old)
      = { key := key, hits := bump8 hits } :: (young ++ old) := by
  have removed : missRemove key (young ++ { key := key, hits := hits } :: old) = young ++ old := by
    have skip : ∀ rest, missRemove key (({ key := key, hits := hits } : MissRecord) :: rest) = missRemove key rest := by
      intro rest
      simp [missRemove]
    have split : ∀ rest, missRemove key (young ++ rest) = missRemove key young ++ missRemove key rest :=
      fun rest => List.filter_append ..
    rw [split, skip, missRemove_of_absent hyoung, missRemove_of_absent hold]
  have found : missHits key (young ++ { key := key, hits := hits } :: old) = hits := by
    have none : young.find? (fun r => r.key == key) = none := List.find?_eq_none.2 fun r hr => by simpa using hyoung r hr
    simp [missHits, List.find?_append, none]
  rw [missUpdate, removed, found, List.take_of_length_le (show (young ++ old).length ≤ Config.missCapacity - 1 from hlen)]

/-- In a sound Miss List a record's key is that of no other record. -/
theorem State.MissSound.split {s : State} (hs : s.MissSound) {young old : List MissRecord} {r : MissRecord}
    (hlist : s.missList = young ++ r :: old) :
    (∀ x ∈ young, x.key ≠ r.key) ∧ (∀ x ∈ old, x.key ≠ r.key) ∧ (young ++ old).length ≤ 7 := by
  obtain ⟨hlen, hnodup, -, -⟩ := hs
  rw [hlist] at hlen hnodup
  rw [List.map_append, List.map_cons, List.nodup_middle, List.nodup_cons, ← List.map_append] at hnodup
  have other : ∀ x ∈ young ++ old, x.key ≠ r.key := fun x hx hk => hnodup.1 (hk ▸ List.mem_map_of_mem hx)
  refine ⟨fun x hx => other x (by simp [hx]), fun x hx => other x (by simp [hx]), ?_⟩
  simp only [List.length_append, List.length_cons] at hlen ⊢
  omega

/-- In PASS mode an arrival leaves the Miss List (R9, R14). -/
theorem exec_arrival_missList {s t : State} {p : Port} {a : Arrival} (hm : s.settings.mode = .pass)
    (h : exec (.arrival p a) s = .next t) : t.missList = s.missList := by
  have arrived : happening s (fun s => s.takeArrival p a) = .next t := h
  have goodTaken : (s.goodTaken p).missList = s.missList ∧ (s.goodTaken p).settings = s.settings := by
    cases p <;> exact ⟨rfl, rfl⟩
  rcases happening_cases arrived with ⟨-, rfl⟩ | ⟨-, rfl⟩
  · rfl
  · rcases s.takeArrival_cases p a with ⟨r, h, -⟩ | ⟨r, h, -⟩ | ⟨r, h, -⟩ | ⟨c, -, -, -, h⟩ <;> rw [h]
    · simp
    · rw [(State.sameRest_enterSync _ p).missList]
      simp
    · rw [(State.sameRest_enterHunt _ p).missList]
      simp
    · rw [← goodTaken.1]
      rcases (s.goodTaken p).dispatch_cases p c with
        h | ⟨-, -, h⟩ | ⟨d, -, -, h⟩ | ⟨d, -, h⟩ | ⟨-, -, h⟩ | ⟨-, h⟩ | ⟨k, -, -, h⟩ <;> rw [h]
      · have hm' : (s.goodTaken p).settings.mode = .pass := by rw [goodTaken.2]; exact hm
        rw [State.classify, hm']
        simp
      · simp
      · simp
      · simp

theorem missUpdatesMissList : Clause.MissUpdatesMissList := by
  refine ⟨fun s c list h hm hs hkey hlist => ?_, fun s t p a hm h => exec_arrival_missList hm h⟩
  have update : missUpdate c.key s.missList = list := by
    rcases hlist with ⟨young, old, hits, hheld, rfl⟩ | ⟨habsent, hlen, rfl⟩ | ⟨habsent, front, oldest, hfull, hlen, rfl⟩
    · obtain ⟨hyoung, hold, hrest⟩ := hs.split hheld
      rw [hheld]
      exact missUpdate_of_held hyoung hold hrest
    · rw [missUpdate_of_absent habsent, List.take_of_length_le (by omega)]
    · rw [missUpdate_of_absent habsent, hfull, ← hlen, List.take_left]
  have hm' : (s.goodTaken .south).settings.mode = .active := hm
  have missed : (s.goodTaken .south).lookup c.key = none := State.lookup_eq_none_iff.2 hkey
  rw [exec_sample h, State.classify, hm']
  simp only [missed, State.takeMiss]
  rw [← update]
  rfl

/-- Settles O14: in PASS mode the Classifier only hands on; a miss updates the Miss List by one of the three rules of R14. -/
theorem samplesPassOrMiss : Obligations.SamplesPassOrMiss :=
  ⟨passModeForwardsSampleUnchanged, missUpdatesMissList⟩

/-! ### The taking of a hit (R10, R19) -/

/-- A SAMPLE whose key an entry holds is taken as a hit in ACTIVE mode (R10). -/
theorem exec_hit {s : State} {c : Cell} {n : Fin Config.channelCount} (h : s.Reaches .south 1 c)
    (hm : s.settings.mode = .active) (hn : (s.goodTaken .south).lookup c.key = some n) :
    exec (.arrival .south (.cell c)) s = .next ((s.goodTaken .south).takeHit n c) := by
  have hm' : (s.goodTaken .south).settings.mode = .active := hm
  rw [exec_sample h, State.classify, hm']
  simp only [hn]

/-- The third step of a taking, by cases of a SILENCE of 0. -/
theorem Channel.restartDeadline_by_silence :
    Channel.restartDeadline = fun e => if e.cfg.silence = 0 then e else { e with deadline := some e.cfg.silence } := by
  funext e
  unfold Channel.restartDeadline
  by_cases h : e.cfg.silence = 0
  · simp [h]
  · simp [h, Nat.pos_of_ne_zero h]

theorem hitTakesSampleInFourSteps : Clause.HitTakesSampleInFourSteps := by
  intro s c n h hm hn
  dsimp only
  rw [exec_hit h hm hn, ← Channel.restartDeadline_by_silence]
  rfl

theorem hitRecordsSampleAndTouchesOneEntry : Clause.HitRecordsSampleAndTouchesOneEntry := by
  intro s c n h hm hn
  obtain ⟨d, d', q, pin, seq, fifo, lost, hd, hd', ht⟩ := (s.goodTaken .south).takeHit_spec n c
  obtain ⟨hlast, hlastRaw, -⟩ := hd.frame
  obtain ⟨-, -, hlast', hlastRaw', -⟩ := hd'.frame
  refine ⟨_, exec_hit h hm hn, ?_⟩
  rw [ht]
  have entry : ∀ m : Fin 128, (s.channels.set n
      { s.channels[n] with dyn := d', deadline := s.channels[n].restartedDeadline })[m]
        = if m = n then { s.channels[n] with dyn := d', deadline := s.channels[n].restartedDeadline } else s.channels[m] :=
    fun m => getElem_set_table s.channels n m _
  dsimp only [State.goodTaken, State.withReceiver_south]
  refine ⟨?_, ?_, ?_, ?_, ?_, fun m hmn => ?_, fun k hk => ?_, rfl⟩
  · rw [entry, if_pos rfl]
    exact hlast'.trans hlast
  · rw [entry, if_pos rfl]
    exact hlastRaw'.trans hlastRaw
  · rw [entry, if_pos rfl]
  · rw [entry, if_pos rfl]
  · rw [entry, if_pos rfl]
  · rw [entry, if_neg hmn]
  · rw [mapTable_fin, if_neg hk]

/-- Settles O17: a hit is the four steps, and what they leave of the part is the specification of `State.takeHit`. -/
theorem hitTakesSample : Obligations.HitTakesSample :=
  ⟨hitTakesSampleInFourSteps, hitRecordsSampleAndTouchesOneEntry⟩

end Sys2Proof.Machine

/-! ## O9, O16: conditioning and the forward decision -/

namespace Sys2Proof.Machine

/-! ### Conditioning (R18) -/

/-- Saturation leaves a 16-bit value. -/
theorem saturate16_of_inWord {v : Int} (h : InWord v) : saturate16 v = v := by
  unfold InWord at h
  unfold saturate16
  omega

/-- The integer quotient of the model is the exact quotient rounded toward minus infinity. -/
theorem ChannelConfig.condition_eq_saturate16_floor (cfg : ChannelConfig) (raw : Int) :
    cfg.condition raw = saturate16 ⌊(((raw + cfg.offset) * cfg.gain : Int) : ℚ) / 256⌋ :=
  congrArg saturate16 (Rat.floor_intCast_div_natCast ((raw + cfg.offset) * cfg.gain) 256).symm

/-- Settles O16: the value is the saturated floor, and the quotient is exact for GAIN 256 with OFFSET 0 and for GAIN 0. -/
theorem conditionedValueIsFlooredAndSaturated : Obligations.ConditionedValueIsFlooredAndSaturated := by
  intro cfg raw
  refine ⟨?_, fun hgain hoffset hlo hhi => ?_, fun hgain => ?_⟩
  · rw [cfg.condition_eq_saturate16_floor, saturate16, min_comm]
  · have quotient : (raw + cfg.offset) * cfg.gain / 256 = raw := by rw [hgain, hoffset]; omega
    rw [ChannelConfig.condition, quotient, saturate16_of_inWord ⟨hlo, hhi⟩]
  · rw [ChannelConfig.condition, hgain, Int.mul_zero]
    rfl

/-! ### The forward decision by POLICY (R20, R23) -/

/-- A sample is due when SENT is absent, at the distance DEADBAND, at a change of state, or with the timer EXPIRED (R23). -/
theorem forwardDue_iff (cfg : ChannelConfig) (prior : ChannelState) (d : ChannelDynamic) (v : Int) :
    forwardDue cfg prior d v = true ↔
      d.sent = none ∨ (∃ w, d.sent = some w ∧ (cfg.deadband : Int) ≤ |v - w|) ∨ d.state ≠ prior ∨ d.forward = .expired := by
  unfold forwardDue
  cases d.sent with
  | none => simp
  | some w =>
    have distance : cfg.deadband ≤ (v - w).natAbs ↔ (cfg.deadband : Int) ≤ |v - w| := by
      rw [Int.abs_eq_natAbs, Int.ofNat_le]
    simp [distance, or_assoc]

/-- What a forward under CONDITIONED or ON_CHANGE leaves: SENT and the forward refresh timer set, the rewritten cell handed
north (R20, R22). -/
def State.sendRewritten (s : State) (n : Fin Config.channelCount) (v : Int) (c : Cell) (timer : ForwardTimer) : State :=
  (s.updateDyn n (fun d => { d with sent := some v, forward := timer })).handNorth (rewrite c s.channels[n].dyn.state v)

section
variable {s : State} {n : Fin Config.channelCount} {prior : ChannelState} {v : Int} {c : Cell}

theorem State.forward_raw (h : s.channels[n].cfg.policy = .raw) : s.forward n prior v c = s.handNorth c := by
  simp only [State.forward, h]

theorem State.forward_suppress (h : s.channels[n].cfg.policy = .suppress) : s.forward n prior v c = s := by
  simp only [State.forward, h]

/-- CONDITIONED does not touch the forward refresh timer. -/
theorem State.forward_conditioned (h : s.channels[n].cfg.policy = .conditioned) :
    s.forward n prior v c = s.sendRewritten n v c s.channels[n].dyn.forward := by
  simp only [State.forward, h]
  rfl

theorem State.forward_onChange (h : s.channels[n].cfg.policy = .onChange) :
    s.forward n prior v c = if forwardDue s.channels[n].cfg prior s.channels[n].dyn v then
      s.sendRewritten n v c (forwardStart s.channels[n].cfg.refresh) else s := by
  simp only [State.forward, h]
  rfl

end

theorem policyDecidesTheForward : Clause.PolicyDecidesTheForward := by
  intro s n prior v c
  dsimp only
  rw [← forwardDue_iff]
  refine ⟨State.forward_raw, State.forward_suppress, State.forward_conditioned, fun h hdue hrefresh => ?_,
    fun h hdue hrefresh => ?_, fun h hdue => ?_⟩
  · rw [State.forward_onChange h, if_pos hdue, forwardStart, if_pos hrefresh]
    rfl
  · rw [State.forward_onChange h, if_pos hdue, forwardStart_eq_idle.2 hrefresh]
    rfl
  · rw [State.forward_onChange h, if_neg hdue]

/-! ### The rewritten cell (R22) -/

/-- CHECK does not enter the code computed over bytes 0 to 6, so a sealed cell is good (R104). -/
@[simp] theorem good_sealed (c : Cell) : c.sealed.good = true := beq_self_eq_true c.checkCode

/-- The two bytes of VALUE, joined, are the 16 bits of the number (R183). -/
theorem valueHigh_append_valueLow (v : Int) : valueHigh v ++ valueLow v = BitVec.ofInt 16 v :=
  BitVec.extractLsb'_append_extractLsb'_eq_extractLsb' rfl |>.trans BitVec.extractLsb'_eq_self

/-- A 16-bit value written into a cell reads back. -/
theorem value_withValue (c : Cell) {v : Int} (h : InWord v) : (c.withValue v).value = v := by
  obtain ⟨hlo, hhi⟩ := h
  calc (valueHigh v ++ valueLow v).toInt
      = (BitVec.ofInt 16 v).toInt := congrArg BitVec.toInt (valueHigh_append_valueLow v)
    _ = v := BitVec.toInt_ofInt_eq_self (by decide) (by omega) (by omega)

theorem ChannelState.code_le (st : ChannelState) : st.code ≤ 6 := by
  cases st <;> decide

theorem rewriteChangesValueAuxCheck : Clause.RewriteChangesValueAuxCheck := by
  intro c st v hlo hhi
  refine ⟨value_withValue c ⟨hlo, hhi⟩, ?_, good_sealed _, rfl⟩
  have hcode := st.code_le
  exact Nat.mod_eq_of_lt (by omega)

/-- Settles O9: the forward decision by POLICY, and the fields of the rewritten cell. -/
theorem policyForwardsRewritesOrDiscards : Obligations.PolicyForwardsRewritesOrDiscards :=
  ⟨policyDecidesTheForward, rewriteChangesValueAuxCheck⟩

end Sys2Proof.Machine

/-! ## O20: admission, trips and returns -/

namespace Sys2Proof.Machine

/-! ### Admission and the rest of the part -/

/-- An admission looks at the queue and NEXT_SEQ only, and sets ALERT# by the queue it leaves (R56 to R59, R72). -/
theorem State.takeAlarm_of_same_queue {s t : State} (hq : t.alarms = s.alarms) (hn : t.nextSeq = s.nextSeq) (a : Alarm) :
    t.takeAlarm a =
      ({ t with alarms := (s.takeAlarm a).1.alarms, alertPin := (s.takeAlarm a).1.alertPin
                nextSeq := (s.takeAlarm a).1.nextSeq }, (s.takeAlarm a).2) := by
  have hseq : t.takeSeq = s.takeSeq := by simp only [State.takeSeq, hq, hn]
  unfold State.takeAlarm State.loseAlarm State.appendAlarm
  rw [hq, hseq]
  split
  · exact Prod.ext (by simp only [State.withAlarms, hn]) rfl
  · split
    · rfl
    · split
      · exact Prod.ext (by simp only [State.withAlarms, hn]) rfl
      · rfl

/-- A raise on a part of the same queue. -/
theorem State.raise_of_same_queue {s t : State} (hq : t.alarms = s.alarms) (hn : t.nextSeq = s.nextSeq) (a : Alarm) :
    t.raise a = { t with alarms := (s.raise a).alarms, alertPin := (s.raise a).alertPin, nextSeq := (s.raise a).nextSeq } :=
  congrArg Prod.fst (State.takeAlarm_of_same_queue hq hn a)

/-- ALERT is static: an alarm of an entry does not see a change of its dynamic part (R49). -/
theorem State.channelAlarm_updateDyn (s : State) (n : Fin Config.channelCount) (f : ChannelDynamic → ChannelDynamic)
    (kind : AlarmKind) (v : Int) : (s.updateDyn n f).channelAlarm n kind v = s.channelAlarm n kind v := by
  simp [State.channelAlarm]

/-- An admission does not see a change of a dynamic part. -/
theorem State.takeAlarm_updateDyn (s : State) (n : Fin Config.channelCount) (f : ChannelDynamic → ChannelDynamic) (a : Alarm) :
    (s.updateDyn n f).takeAlarm a
      = ({ (s.takeAlarm a).1 with channels := (s.updateDyn n f).channels }, (s.takeAlarm a).2) :=
  s.takeAlarm_updateChannel n _ a

/-- A raise does not see a change of an entry. -/
theorem State.raise_updateChannel (s : State) (n : Fin Config.channelCount) (f : Channel → Channel) (a : Alarm) :
    (s.updateChannel n f).raise a = { s.raise a with channels := (s.updateChannel n f).channels } :=
  congrArg Prod.fst (s.takeAlarm_updateChannel n f a)

/-- A raise does not see a change of a dynamic part. -/
theorem State.raise_updateDyn (s : State) (n : Fin Config.channelCount) (f : ChannelDynamic → ChannelDynamic) (a : Alarm) :
    (s.updateDyn n f).raise a = { s.raise a with channels := (s.updateDyn n f).channels } :=
  s.raise_updateChannel n _ a

/-! ### Records that stand -/

/-- Every record of a queue stands in another one, under its SEQ, KIND and SUBJECT. -/
def Stands (q q' : List AlarmRecord) : Prop :=
  ∀ r ∈ q, ∃ r' ∈ q', r'.seq = r.seq ∧ r'.kind = r.kind ∧ r'.subject = r.subject

theorem Stands.refl (q : List AlarmRecord) : Stands q q := fun r hr => ⟨r, hr, rfl, rfl, rfl⟩

theorem Stands.trans {q q' q'' : List AlarmRecord} (h : Stands q q') (h' : Stands q' q'') : Stands q q'' := by
  intro r hr
  obtain ⟨r', hr', hseq, hkind, hsubject⟩ := h r hr
  obtain ⟨r'', hr'', hseq', hkind', hsubject'⟩ := h' r' hr'
  exact ⟨r'', hr'', hseq'.trans hseq, hkind'.trans hkind, hsubject'.trans hsubject⟩

theorem Stands.append (q new : List AlarmRecord) : Stands q (q ++ new) :=
  fun r hr => ⟨r, List.mem_append_left new hr, rfl, rfl, rfl⟩

theorem Stands.map {f : AlarmRecord → AlarmRecord}
    (h : ∀ r, (f r).seq = r.seq ∧ (f r).kind = r.kind ∧ (f r).subject = r.subject) (q : List AlarmRecord) :
    Stands q (q.map f) :=
  fun r hr => ⟨f r, List.mem_map_of_mem hr, h r⟩

/-- One record changed in its place. -/
theorem Stands.replace (older younger : List AlarmRecord) (r r' : AlarmRecord)
    (h : r'.seq = r.seq ∧ r'.kind = r.kind ∧ r'.subject = r.subject) :
    Stands (older ++ r :: younger) (older ++ r' :: younger) := by
  intro x hx
  rcases List.mem_append.1 hx with hx | hx
  · exact ⟨x, by simp [hx], rfl, rfl, rfl⟩
  · rcases List.mem_cons.1 hx with rfl | hx
    · exact ⟨r', by simp, h⟩
    · exact ⟨x, by simp [hx], rfl, rfl, rfl⟩

theorem AlarmRecord.countLost_stands (r : AlarmRecord) (alert : Bool) :
    (r.countLost alert).seq = r.seq ∧ (r.countLost alert).kind = r.kind ∧ (r.countLost alert).subject = r.subject := by
  unfold AlarmRecord.countLost
  dsimp only
  split <;> exact ⟨rfl, rfl, rfl⟩

/-- An admission lets every record stand (R56 to R58). -/
theorem State.stands_takeAlarm (s : State) (a : Alarm) : Stands s.alarms (s.takeAlarm a).1.alarms := by
  rcases s.takeAlarm_cases a with ⟨older, r, younger, hq, -, -, -, h⟩ | ⟨-, h⟩ | ⟨-, -, h⟩ | ⟨-, -, h⟩ <;> rw [h]
  · rw [hq]
    exact .replace older younger r (r.absorb a) ⟨rfl, rfl, rfl⟩
  · exact .append _ _
  · refine .map (fun r => ?_) _
    split
    · exact r.countLost_stands _
    · exact ⟨rfl, rfl, rfl⟩
  · exact .append _ _

theorem State.stands_raise (s : State) (a : Alarm) : Stands s.alarms (s.raise a).alarms := s.stands_takeAlarm a

/-- The SEQ that an admission reports is that of a held record of the alarm's KIND and SUBJECT (R34, R56, R57). -/
theorem State.takeAlarm_names {s : State} {a : Alarm} {seq : Nat} (h : (s.takeAlarm a).2.seq = some seq) :
    ∃ r ∈ (s.takeAlarm a).1.alarms, r.seq = seq ∧ r.kind = a.kind ∧ r.subject = a.subject := by
  rcases s.takeAlarm_cases a with ⟨older, r, younger, -, hsubject, habsorbs, -, ht⟩ | ⟨-, ht⟩ | ⟨-, -, ht⟩ | ⟨-, -, ht⟩ <;>
    rw [ht] at h ⊢
  · simp only [AlarmRecord.absorbs, Bool.and_eq_true, beq_iff_eq] at habsorbs
    obtain ⟨⟨hkind, -⟩, -⟩ := habsorbs
    cases h
    exact ⟨r.absorb a, by simp, rfl, hkind, hsubject⟩
  · cases h
    exact ⟨.fresh s.takeSeq a, by simp, rfl, rfl, rfl⟩
  · cases h
  · cases h

/-! ### Trips and returns (R34, R40) -/

/-- A dynamic part that has tripped (R34). -/
def ChannelDynamic.enterTripped (d : ChannelDynamic) (state : ChannelState) (seq : Option Nat) : ChannelDynamic :=
  { d with state := state, run := 0, acked := false, clearMet := false, tripSeq := seq }

/-- A trip is the admission of its alarm and the change of the entry, TRIP_SEQ coming from the admission (R34). -/
theorem State.trip_eq (s : State) (n : Fin Config.channelCount) (state : ChannelState) (kind : AlarmKind) (v : Int) :
    s.trip n state kind v =
      { (s.takeAlarm (s.channelAlarm n kind v)).1 with
        channels := s.channels.set n
          { s.channels[n] with
            dyn := s.channels[n].dyn.enterTripped state (s.takeAlarm (s.channelAlarm n kind v)).2.seq } } := by
  unfold State.trip
  dsimp only
  rw [s.channelAlarm_updateDyn, s.takeAlarm_updateDyn]
  simp [State.updateDyn, State.updateChannel, ChannelDynamic.enterTripped]

/-- A return to NORMAL is the raise of its alarm and the change of the entry (R40). -/
theorem State.returnToNormal_eq (s : State) (n : Fin Config.channelCount) (v : Int) :
    s.returnToNormal n v =
      { s.raise (s.channelAlarm n .cleared v) with
        channels := s.channels.set n { s.channels[n] with dyn := s.channels[n].dyn.normalAgain } } := by
  unfold State.returnToNormal
  dsimp only
  rw [s.channelAlarm_updateDyn, s.raise_updateDyn]
  rfl

/-- What a return sets hides a change of RUN, ACKED, CLEAR_MET or TRIP_SEQ before it (R40). -/
theorem State.returnToNormal_updateDyn (s : State) (n : Fin Config.channelCount) {f : ChannelDynamic → ChannelDynamic}
    (hf : ∀ d, (f d).normalAgain = d.normalAgain) (v : Int) :
    (s.updateDyn n f).returnToNormal n v = s.returnToNormal n v := by
  unfold State.returnToNormal
  dsimp only
  rw [s.updateDyn_updateDyn]
  simp only [ChannelDynamic.normalAgain] at hf
  simp only [hf]

/-- Settles O20: a trip and a return are each one admission and one change of the entry. -/
theorem tripTakesSeqFromAdmission : Obligations.TripTakesSeqFromAdmission := by
  intro s n v
  refine ⟨fun st kind _ => ?_, s.returnToNormal_eq n v⟩
  rw [s.trip_eq]
  unfold State.channelAlarm
  cases (s.takeAlarm { kind := kind, subject := .channel n, value := v, alert := s.channels[n].cfg.alert }).2 <;> rfl

/-! ## O18: evaluation out of the states that are not tripped -/

/-- A value above HIGH is out of limits on the high side (R35). -/
theorem ChannelConfig.outside_of_above {cfg : ChannelConfig} {v : Int} (h : v > cfg.high) : cfg.outside v = some .high := by
  simp [ChannelConfig.outside, h]

/-- A value below LOW is out of limits on the low side (R35). -/
theorem ChannelConfig.outside_of_below {cfg : ChannelConfig} {v : Int} (hlim : cfg.low < cfg.high) (h : v < cfg.low) :
    cfg.outside v = some .low := by
  rw [ChannelConfig.outside, if_neg (by omega), if_pos h]

/-- A value equal to a limit is within limits (R35). -/
theorem ChannelConfig.outside_of_within {cfg : ChannelConfig} {v : Int} (hlo : cfg.low ≤ v) (hhi : v ≤ cfg.high) :
    cfg.outside v = none := by
  rw [ChannelConfig.outside, if_neg (by omega), if_neg (by omega)]

/-- The part with the STATE and RUN of entry `n` set. -/
def State.setRun (s : State) (n : Fin Config.channelCount) (state : ChannelState) (run : Nat) : State :=
  s.updateDyn n (fun d => { d with state := state, run := run })

section
variable {s : State} {n : Fin Config.channelCount} {side : Side} {run : Nat} {v : Int}

theorem State.confirmRun_of_reached (h : s.channels[n].cfg.trips ≤ run) :
    s.confirmRun n side run v = s.trip n side.tripped side.kind v :=
  if_pos h

theorem State.confirmRun_of_short (h : run < s.channels[n].cfg.trips) :
    s.confirmRun n side run v = s.setRun n side.pend run :=
  if_neg (by omega)

/-- Evaluation from NORMAL by the side of the value (R35). -/
theorem State.evalNormal_of_outside (h : s.channels[n].cfg.outside v = some side) :
    s.evalNormal n v = s.confirmRun n side 1 v := by
  simp only [State.evalNormal, h]

theorem State.evalNormal_of_within (h : s.channels[n].cfg.outside v = none) : s.evalNormal n v = s.setRun n .normal 0 := by
  simp only [State.evalNormal, h]
  rfl

/-- A value out of limits on the side of the run extends it (R36, R37). -/
theorem State.evalPend_of_same (h : s.channels[n].cfg.outside v = some side) :
    s.evalPend n side v = s.confirmRun n side (s.channels[n].dyn.run + 1) v := by
  simp only [State.evalPend, h, if_true]

/-- A value out of limits on the other side starts a run there, and one within limits ends the run: as from NORMAL
(R36, R37). -/
theorem State.evalPend_of_not_same (h : s.channels[n].cfg.outside v ≠ some side) :
    s.evalPend n side v = s.evalNormal n v := by
  unfold State.evalPend State.evalNormal
  split
  · next out hout =>
    have other : out ≠ side := by rintro rfl; exact h hout
    rw [if_neg other]
  · rfl

end

/-- The first sample of a confirmation run trips or enters the pending state; one within limits gives NORMAL (R35). -/
theorem State.evalNormal_follows (s : State) (n : Fin Config.channelCount) (v : Int)
    (hlim : s.channels[n].cfg.low < s.channels[n].cfg.high) :
    (v > s.channels[n].cfg.high → s.channels[n].cfg.trips ≤ 1 → s.evalNormal n v = s.trip n .high .high v)
      ∧ (v > s.channels[n].cfg.high → 1 < s.channels[n].cfg.trips → s.evalNormal n v = s.setRun n .highPend 1)
      ∧ (v < s.channels[n].cfg.low → s.channels[n].cfg.trips ≤ 1 → s.evalNormal n v = s.trip n .low .low v)
      ∧ (v < s.channels[n].cfg.low → 1 < s.channels[n].cfg.trips → s.evalNormal n v = s.setRun n .lowPend 1)
      ∧ (s.channels[n].cfg.low ≤ v → v ≤ s.channels[n].cfg.high → s.evalNormal n v = s.setRun n .normal 0) := by
  have above : v > s.channels[n].cfg.high → s.evalNormal n v = s.confirmRun n .high 1 v :=
    fun h => State.evalNormal_of_outside (ChannelConfig.outside_of_above h)
  have below : v < s.channels[n].cfg.low → s.evalNormal n v = s.confirmRun n .low 1 v :=
    fun h => State.evalNormal_of_outside (ChannelConfig.outside_of_below hlim h)
  refine ⟨fun h ht => ?_, fun h ht => ?_, fun h ht => ?_, fun h ht => ?_, fun hlo hhi => ?_⟩
  · exact (above h).trans (State.confirmRun_of_reached ht)
  · exact (above h).trans (State.confirmRun_of_short ht)
  · exact (below h).trans (State.confirmRun_of_reached ht)
  · exact (below h).trans (State.confirmRun_of_short ht)
  · exact State.evalNormal_of_within (ChannelConfig.outside_of_within hlo hhi)

/-- A value on the side of the confirmation run extends it to a trip or by 1; any other is taken as from NORMAL
(R36, R37). -/
theorem State.evalPend_follows (s : State) (n : Fin Config.channelCount) (side : Side) (v : Int) :
    (s.channels[n].cfg.outside v = some side → s.channels[n].cfg.trips ≤ s.channels[n].dyn.run + 1 →
        s.evalPend n side v = s.trip n side.tripped side.kind v)
      ∧ (s.channels[n].cfg.outside v = some side → s.channels[n].dyn.run + 1 < s.channels[n].cfg.trips →
        s.evalPend n side v = s.setRun n side.pend (s.channels[n].dyn.run + 1))
      ∧ (s.channels[n].cfg.outside v ≠ some side → s.evalPend n side v = s.evalNormal n v) :=
  ⟨fun h ht => (State.evalPend_of_same h).trans (State.confirmRun_of_reached ht),
    fun h ht => (State.evalPend_of_same h).trans (State.confirmRun_of_short ht), State.evalPend_of_not_same⟩

/-- Settles O18: out of UNSEEN, NORMAL and STALE the evaluation is that from NORMAL; in a pending state a value on the other
side, or within limits, is taken as from NORMAL, and one on the same side extends the run. -/
theorem evaluationFollowsLimits : Obligations.EvaluationFollowsLimits := by
  intro s n v hlim
  obtain ⟨tripHigh, pendHigh, tripLow, pendLow, within⟩ := s.evalNormal_follows n v hlim
  have above : v > s.channels[n].cfg.high → s.channels[n].cfg.outside v = some .high := ChannelConfig.outside_of_above
  have below : v < s.channels[n].cfg.low → s.channels[n].cfg.outside v = some .low := ChannelConfig.outside_of_below hlim
  have inside : s.channels[n].cfg.low ≤ v → v ≤ s.channels[n].cfg.high → s.channels[n].cfg.outside v = none :=
    ChannelConfig.outside_of_within
  refine ⟨fun b hb => ?_, fun hstate => ?_, fun hstate => ?_⟩
  · have eval : s.evalSample n v = b.evalNormal n v := by
      rcases hb with ⟨hstate | hstate, rfl⟩ | ⟨hstate, rfl⟩ <;> simp only [State.evalSample, hstate]
      rfl
    have same : b.channels = s.channels := by
      rcases hb with ⟨-, rfl⟩ | ⟨-, rfl⟩
      · rfl
      · exact State.raise_channels ..
    have follows := b.evalNormal_follows n v (by rw [same]; exact hlim)
    unfold State.setRun State.updateDyn State.updateChannel at follows
    rw [same] at follows
    rw [eval]
    exact follows
  · have eval : s.evalSample n v = s.evalPend n .high v := by simp only [State.evalSample, hstate]
    obtain ⟨trip, extend, asNormal⟩ := s.evalPend_follows n .high v
    rw [eval]
    exact ⟨fun h => trip (above h), fun h => extend (above h),
      fun h ht => (asNormal (by rw [below h]; nofun)).trans (tripLow h ht),
      fun h ht => (asNormal (by rw [below h]; nofun)).trans (pendLow h ht),
      fun hlo hhi => (asNormal (by rw [inside hlo hhi]; nofun)).trans (within hlo hhi)⟩
  · have eval : s.evalSample n v = s.evalPend n .low v := by simp only [State.evalSample, hstate]
    obtain ⟨trip, extend, asNormal⟩ := s.evalPend_follows n .low v
    rw [eval]
    exact ⟨fun h => trip (below h), fun h => extend (below h),
      fun h ht => (asNormal (by rw [above h]; nofun)).trans (tripHigh h ht),
      fun h ht => (asNormal (by rw [above h]; nofun)).trans (pendHigh h ht),
      fun hlo hhi => (asNormal (by rw [inside hlo hhi]; nofun)).trans (within hlo hhi)⟩

end Sys2Proof.Machine

/-! ## O21: the timers of an entry -/

namespace Sys2Proof.Machine

/-- The expiry of a deadline of an entry out of STALE: the raise of its alarm, the change of the entry, and the source-stale
event (R45). -/
theorem State.deadlineExpires_of_live {s : State} {n : Fin Config.channelCount} (h : s.channels[n].dyn.state ≠ .stale) :
    s.deadlineExpires n =
      { s.raise (s.channelAlarm n .stale (s.channels[n].dyn.last.getD 0)) with
        channels := s.channels.set n { s.channels[n] with deadline := none, dyn := s.channels[n].dyn.goneStale }
        loops := mapTable (fun l => if l.cfg.source = n then l.sourceStale else l) s.loops } := by
  have alarm : ∀ v, (s.updateChannel n Channel.stopDeadline).channelAlarm n .stale v = s.channelAlarm n .stale v := by
    intro v
    simp [State.channelAlarm, Channel.stopDeadline]
  unfold State.deadlineExpires
  dsimp only
  rw [if_neg h, State.enterStale]
  rw [State.channelAlarm_updateDyn, alarm, State.raise_updateDyn, s.raise_updateChannel]
  simp [State.updateDyn, State.updateChannel, Channel.stopDeadline, ChannelDynamic.goneStale, State.sourceStaleEvent,
    State.mapLoops]

/-- A source-stale event puts a loop in an automatic state into HELD (R89). -/
theorem Loop.sourceStale_eq (l : Loop) :
    l.sourceStale =
      if l.state.automatic = true then
        { l with state := .held, drive := l.cfg.failsafeDuty
                 pending := l.pending || decide (l.drive ≠ l.cfg.failsafeDuty)
                 stepTimer := none, stopTimer := none, satCount := 0 }
      else l := rfl

theorem deadlineExpiryMakesStale : Clause.DeadlineExpiryMakesStale := by
  intro s n hrunning
  have exec_eq : exec (.deadlineExpiry n) s
      = expiry s (fun s => reached s.channels[n].deadline) (fun s => s.deadlineExpires n) := rfl
  have due : s.channels[n].deadline = some 0 → exec (.deadlineExpiry n) s = .next (s.deadlineExpires n) :=
    fun h => exec_eq.trans (expiry_of_due hrunning ((reached_iff _).2 h) _)
  refine ⟨fun hd hlive => ⟨_, due hd, ?_, fun k => ?_⟩, fun hd hstale => ?_, fun hd => ?_⟩
  · rw [State.deadlineExpires_of_live hlive]
    rfl
  · rw [State.deadlineExpires_of_live hlive]
    dsimp only
    rw [mapTable_fin, Loop.sourceStale_eq, ite_and]
  · rw [due hd, State.deadlineExpires]
    simp only [hstale, if_true]
    rfl
  · exact exec_eq.trans (expiry_of_not_due ((reached_eq_false_iff _).2 hd) _)

theorem forwardRefreshExpiryMarksExpired : Clause.ForwardRefreshExpiryMarksExpired := by
  intro s n hrunning
  have exec_eq : exec (.forwardRefreshExpiry n) s
      = expiry s (fun s => s.channels[n].dyn.forward.reached)
          (fun s => s.updateDyn n (fun d => { d with forward := .expired })) := rfl
  exact ⟨fun h => exec_eq.trans (expiry_of_due hrunning ((ForwardTimer.reached_iff _).2 h) _),
    fun h => exec_eq.trans (expiry_of_not_due ((ForwardTimer.reached_eq_false_iff _).2 h) _)⟩

/-- Settles O21: each expiry acts exactly on a timer that stands at its count; that of a live entry's deadline is one raise,
one change of the entry and one event for its loops. -/
theorem channelTimersExpire : Obligations.ChannelTimersExpire :=
  ⟨deadlineExpiryMakesStale, forwardRefreshExpiryMarksExpired⟩

end Sys2Proof.Machine

/-! ## O19: tripped channels -/

namespace Sys2Proof.Machine

/-! ### The evaluation (R38, R39) -/

/-- The part with RUN and CLEAR_MET of entry `n` set. -/
def State.setClearRun (s : State) (n : Fin Config.channelCount) (run : Nat) (met : Bool) : State :=
  s.updateDyn n (fun d => { d with run := run, clearMet := met })

section
variable {s : State} {n : Fin Config.channelCount} {side : Side} {v : Int}

theorem State.evalTripped_of_not_clear (h : s.channels[n].cfg.clear side v = false) :
    s.evalTripped n side v = s.setClearRun n 0 false := by
  rw [State.evalTripped, h, if_neg (by decide)]
  rfl

/-- A clear run that is not yet as long as CLEARS goes on (R38). -/
theorem State.evalTripped_of_short (h : s.channels[n].cfg.clear side v = true)
    (hrun : min (s.channels[n].dyn.run + 1) s.channels[n].cfg.clears < s.channels[n].cfg.clears) :
    s.evalTripped n side v
      = s.setClearRun n (min (s.channels[n].dyn.run + 1) s.channels[n].cfg.clears) s.channels[n].dyn.clearMet := by
  rw [State.evalTripped, if_pos h]
  dsimp only
  rw [if_neg (by omega)]
  rfl

/-- A clear run as long as CLEARS is confirmed (R39). -/
theorem State.evalTripped_of_complete (h : s.channels[n].cfg.clear side v = true)
    (hrun : min (s.channels[n].dyn.run + 1) s.channels[n].cfg.clears = s.channels[n].cfg.clears) :
    s.evalTripped n side v = (s.updateDyn n (fun d =>
      { d with run := min (s.channels[n].dyn.run + 1) s.channels[n].cfg.clears })).confirmClear n v := by
  rw [State.evalTripped, if_pos h]
  dsimp only
  rw [if_pos hrun]

/-- A COMPARE channel, or an acknowledged one, returns to NORMAL (R39). -/
theorem State.confirmClear_of_free (h : s.channels[n].cfg.mode = .compare ∨ s.channels[n].dyn.acked = true) :
    s.confirmClear n v = s.returnToNormal n v := by
  unfold State.confirmClear
  split
  · rfl
  · rfl
  · simp_all

/-- An unacknowledged LATCH channel only marks the clear run as met (R39). -/
theorem State.confirmClear_of_latched (hm : s.channels[n].cfg.mode = .latch) (ha : s.channels[n].dyn.acked = false) :
    s.confirmClear n v = s.updateDyn n (fun d => { d with clearMet := true }) := by
  simp only [State.confirmClear, hm, ha]

end

/-- The side of a tripped state decides the evaluation and what is clear (R38). -/
theorem State.evalSample_of_tripped {s : State} {n : Fin Config.channelCount}
    (h : s.channels[n].dyn.state = .high ∨ s.channels[n].dyn.state = .low) (v : Int) :
    ∃ side, s.evalSample n v = s.evalTripped n side v
      ∧ (s.channels[n].cfg.clear side v = true ↔
          (s.channels[n].dyn.state = .high ∧ v ≤ s.channels[n].cfg.high - s.channels[n].cfg.hyst)
            ∨ (s.channels[n].dyn.state = .low ∧ v ≥ s.channels[n].cfg.low + s.channels[n].cfg.hyst)) := by
  rcases h with h | h
  · exact ⟨.high, by simp only [State.evalSample, h], by rw [h]; simp [ChannelConfig.clear]⟩
  · exact ⟨.low, by simp only [State.evalSample, h], by rw [h]; simp [ChannelConfig.clear]⟩

theorem trippedChannelWaitsForClearRun : Clause.TrippedChannelWaitsForClearRun := by
  intro s n v hstate
  obtain ⟨side, eval, clear⟩ := State.evalSample_of_tripped hstate v
  dsimp only
  rw [eval, ← clear]
  have counted : ∀ {run}, (s.updateDyn n (fun d => { d with run := run })).channels[n]
      = { s.channels[n] with dyn := { s.channels[n].dyn with run := run } } := by
    intro run
    rw [State.updateDyn_channels, getElem_set_table, if_pos rfl]
  refine ⟨fun hc hrun => State.evalTripped_of_short hc hrun, fun hc hrun hfree => ?_, fun hc hrun hm ha => ?_,
    fun hc => State.evalTripped_of_not_clear (by simpa using hc)⟩
  · rw [State.evalTripped_of_complete hc hrun, State.confirmClear_of_free (by rw [counted]; exact hfree)]
    refine s.returnToNormal_updateDyn n (fun d => ?_) v
    rfl
  · rw [State.evalTripped_of_complete hc hrun,
      State.confirmClear_of_latched (by rw [counted]; exact hm) (by rw [counted]; exact ha), State.updateDyn_updateDyn]
    rfl

/-! ### What an arrival does to the entries -/

/-- The part with a sample recorded in entry `n` (R10, step 1). -/
def State.recorded (s : State) (n : Fin Config.channelCount) (c : Cell) : State :=
  s.updateDyn n (fun d => d.record (s.channels[n].cfg.condition c.value) c.value)

/-- The part after the first two steps of a hit but the source-sample event (R10, R33). -/
def State.hitEvaluated (s : State) (n : Fin Config.channelCount) (c : Cell) : State :=
  (s.recorded n c).evalSample n (s.channels[n].cfg.condition c.value)

/-- What follows the evaluation of a hit touches neither the queue nor the STATE or TRIP_SEQ of an entry (R10, R33). -/
theorem State.takeHit_of_evaluated (s : State) (n : Fin Config.channelCount) (c : Cell) :
    (s.takeHit n c).alarms = (s.hitEvaluated n c).alarms
      ∧ ∀ m : Fin Config.channelCount,
        (s.takeHit n c).channels[m].dyn.state = (s.hitEvaluated n c).channels[m].dyn.state
          ∧ (s.takeHit n c).channels[m].dyn.tripSeq = (s.hitEvaluated n c).channels[m].dyn.tripSeq := by
  have restarted : (s.takeHit n c) =
      (((s.hitEvaluated n c).sourceSampleEvent n).updateChannel n Channel.restartDeadline).forward n
        s.channels[n].dyn.state (s.channels[n].cfg.condition c.value) c := rfl
  generalize s.hitEvaluated n c = b at restarted ⊢
  have dyn : ∀ m : Fin Config.channelCount,
      ((b.sourceSampleEvent n).updateChannel n Channel.restartDeadline).channels[m].dyn = b.channels[m].dyn := by
    intro m
    rw [State.updateChannel_channels, getElem_set_table]
    split
    · next hm => rw [Channel.restartDeadline_eq, hm]; rfl
    · rfl
  obtain ⟨d, fifo, lost, hd, hforward⟩ :=
    ((b.sourceSampleEvent n).updateChannel n Channel.restartDeadline).forwarded_forward n s.channels[n].dyn.state
      (s.channels[n].cfg.condition c.value) c
  obtain ⟨hstate, -, -, -, -, -, hseq⟩ := hd.frame
  rw [restarted, hforward]
  refine ⟨rfl, fun m => ?_⟩
  dsimp only
  rw [getElem_set_table]
  split
  · next hm =>
    subst hm
    rw [← dyn m]
    exact ⟨hstate, hseq⟩
  · rw [dyn m]
    exact ⟨rfl, rfl⟩

/-- A change of synchronisation lets every record stand (R65, R66, R111). -/
theorem State.stands_enterSync (s : State) (p : Port) : Stands s.alarms (s.enterSync p).alarms := by
  refine Stands.trans ?_ (State.stands_raise _ _)
  cases p with
  | north =>
    refine .map (fun r => ?_) s.alarms
    unfold AlarmRecord.linkBack
    split <;> exact ⟨rfl, rfl, rfl⟩
  | south => exact .refl _

theorem State.stands_enterHunt (s : State) (p : Port) : Stands s.alarms (s.enterHunt p).alarms := by
  refine Stands.trans ?_ (State.stands_raise _ _)
  cases p with
  | north => exact Stands.map (f := AlarmRecord.linkLost) (fun r => ⟨rfl, rfl, rfl⟩) s.alarms
  | south => exact .refl _

/-- An arrival is the taking of a hit, or leaves every entry and lets every record stand (R105, R109 to R117). -/
theorem State.takeArrival_hit_or_stands (s : State) (p : Port) (a : Arrival) :
    (∃ n c, s.takeArrival p a = (s.goodTaken p).takeHit n c)
      ∨ ((s.takeArrival p a).channels = s.channels ∧ Stands s.alarms (s.takeArrival p a).alarms) := by
  have idle : ∀ t : State, t.channels = s.channels → t.alarms = s.alarms →
      t.channels = s.channels ∧ Stands s.alarms t.alarms := fun t hc ha => ⟨hc, ha ▸ .refl _⟩
  have received : ∀ r, (s.withReceiver p r).channels = s.channels ∧ (s.withReceiver p r).alarms = s.alarms :=
    fun r => by cases p <;> exact ⟨rfl, rfl⟩
  rcases s.takeArrival_cases p a with ⟨r, h, -⟩ | ⟨r, h, -⟩ | ⟨r, h, -⟩ | ⟨c, -, -, -, h⟩ <;> rw [h]
  · exact .inr (idle _ (received r).1 (received r).2)
  · refine .inr ⟨by rw [State.enterSync_channels, (received r).1], ?_⟩
    rw [← (received r).2]
    exact State.stands_enterSync _ p
  · refine .inr ⟨by rw [State.enterHunt_channels, (received r).1], ?_⟩
    rw [← (received r).2]
    exact State.stands_enterHunt _ p
  · obtain ⟨hchannels, halarms⟩ := received { s.receiver p with badRun := 0 }
    rcases (s.goodTaken p).dispatch_cases p c with
      h | ⟨-, -, h⟩ | ⟨d, -, -, h⟩ | ⟨d, -, h⟩ | ⟨-, -, h⟩ | ⟨-, h⟩ | ⟨k, -, -, h⟩ <;> rw [h]
    · exact .inr (idle _ hchannels halarms)
    · rcases (s.goodTaken p).classify_cases c with ⟨-, h⟩ | ⟨n, -, -, -, h⟩ | ⟨-, -, h⟩ <;> rw [h]
      · exact .inr (idle _ ((State.handNorth_channels ..).trans hchannels) ((State.handNorth_alarms ..).trans halarms))
      · exact .inl ⟨n, c, rfl⟩
      · obtain ⟨fifo, lost, hmiss⟩ := (s.goodTaken p).takeMiss_spec c
        rw [hmiss]
        exact .inr (idle _ hchannels halarms)
    · exact .inr (idle _ ((State.handNorth_channels ..).trans hchannels) ((State.handNorth_alarms ..).trans halarms))
    · exact .inr (idle _ ((State.handSouth_channels ..).trans hchannels) ((State.handSouth_alarms ..).trans halarms))
    · exact .inr (idle _ hchannels halarms)
    · exact .inr (idle _ hchannels halarms)
    · exact .inr (idle _ hchannels halarms)

/-- The evaluation of a tripped LATCH channel keeps its STATE, or returns it to NORMAL acknowledged (R39). -/
theorem State.evalSample_of_latched {s : State} {n : Fin Config.channelCount} (v : Int)
    (hm : s.channels[n].cfg.mode = .latch) (h : s.channels[n].dyn.state = .high ∨ s.channels[n].dyn.state = .low) :
    (s.evalSample n v).channels[n].dyn.state = s.channels[n].dyn.state
      ∨ ((s.evalSample n v).channels[n].dyn.state = .normal ∧ s.channels[n].dyn.acked = true) := by
  obtain ⟨short, free, latched, notClear⟩ := trippedChannelWaitsForClearRun s n v h
  have kept : ∀ run met, s.evalSample n v = s.setClearRun n run met →
      (s.evalSample n v).channels[n].dyn.state = s.channels[n].dyn.state := by
    intro run met heq
    rw [heq, State.setClearRun, State.updateDyn_channels, getElem_set_table, if_pos rfl]
  by_cases hc : (s.channels[n].dyn.state = .high ∧ v ≤ s.channels[n].cfg.high - s.channels[n].cfg.hyst)
      ∨ (s.channels[n].dyn.state = .low ∧ v ≥ s.channels[n].cfg.low + s.channels[n].cfg.hyst)
  · rcases Nat.lt_or_eq_of_le (Nat.min_le_right (s.channels[n].dyn.run + 1) s.channels[n].cfg.clears) with hrun | hrun
    · exact .inl (kept _ _ (short hc hrun))
    · cases ha : s.channels[n].dyn.acked with
      | true =>
        refine .inr ⟨?_, rfl⟩
        rw [free hc hrun (.inr ha), State.returnToNormal_eq]
        dsimp only
        rw [getElem_set_table, if_pos rfl]
        rfl
      | false => exact .inl (kept _ _ (latched hc hrun hm ha))
  · exact .inl (kept _ _ (notClear hc))

theorem latchedTripWaitsForAcknowledgement : Clause.LatchedTripWaitsForAcknowledgement := by
  intro s t p a n h hm hstate
  have arrived : happening s (fun s => s.takeArrival p a) = .next t := h
  rcases happening_cases arrived with ⟨-, rfl⟩ | ⟨-, rfl⟩
  · exact .inl rfl
  rcases s.takeArrival_hit_or_stands p a with ⟨m, c, hit⟩ | ⟨same, -⟩
  · rw [hit]
    have goodTaken : (s.goodTaken p).channels = s.channels := by cases p <;> rfl
    rw [(((s.goodTaken p).takeHit_of_evaluated m c).2 n).1, State.hitEvaluated]
    rw [← goodTaken] at hm hstate ⊢
    generalize s.goodTaken p = b at hm hstate ⊢
    obtain ⟨d, -, others⟩ := (b.recorded m c).evaluated_evalSample m (b.channels[m].cfg.condition c.value)
    by_cases hnm : n = m
    · subst hnm
      have entry : (b.recorded n c).channels[n] =
          { b.channels[n] with dyn := b.channels[n].dyn.record (b.channels[n].cfg.condition c.value) c.value } := by
        rw [State.recorded, State.updateDyn_channels, getElem_set_table, if_pos rfl]
      have latched := State.evalSample_of_latched (s := b.recorded n c) (b.channels[n].cfg.condition c.value)
        (by rw [entry]; exact hm) (by rw [entry]; exact hstate)
      rw [entry] at latched
      exact latched
    · left
      rw [others]
      dsimp only
      rw [getElem_set_table, if_neg hnm, State.recorded, State.updateDyn_channels, getElem_set_table, if_neg hnm]
  · rw [same]
    exact .inl rfl

/-- Settles O19: the evaluation of a tripped channel by the length of its clear run; an arrival touches an entry only as a hit,
whose STATE is that of the evaluation. -/
theorem trippedChannelsClearByRuns : Obligations.TrippedChannelsClearByRuns :=
  ⟨trippedChannelWaitsForClearRun, latchedTripWaitsForAcknowledgement⟩

end Sys2Proof.Machine

/-! ## O56: a TRIP_SEQ names a held record -/

namespace Sys2Proof.Machine

/-! ### One entry's TRIP_SEQ -/

/-- A present TRIP_SEQ of the dynamic part of entry `n` names a record of the queue, HIGH in HIGH and LOW in LOW (R44). -/
def ChannelDynamic.TripNamed (d : ChannelDynamic) (n : Fin Config.channelCount) (q : List AlarmRecord) : Prop :=
  ∀ seq, d.tripSeq = some seq →
    ∃ r ∈ q, r.seq = seq ∧ r.subject = .channel n
      ∧ ((d.state = .high ∧ r.kind = .high) ∨ (d.state = .low ∧ r.kind = .low))

theorem State.tripsNamed_iff (s : State) :
    s.TripsNamed ↔ ∀ n : Fin Config.channelCount, s.channels[n].dyn.TripNamed n s.alarms := Iff.rfl

/-- A change that clears TRIP_SEQ, or keeps it with STATE. -/
def ChannelDynamic.TripKept (d d' : ChannelDynamic) : Prop :=
  d'.tripSeq = none ∨ (d'.tripSeq = d.tripSeq ∧ d'.state = d.state)

theorem ChannelDynamic.TripKept.refl (d : ChannelDynamic) : d.TripKept d := .inr ⟨rfl, rfl⟩

section
variable {d d' : ChannelDynamic} {n : Fin Config.channelCount} {q q' : List AlarmRecord}

theorem ChannelDynamic.tripNamed_of_none (h : d.tripSeq = none) : d.TripNamed n q := by
  intro seq hseq
  rw [h] at hseq
  cases hseq

/-- A TRIP_SEQ that is kept names a record as long as the records stand. -/
theorem ChannelDynamic.TripNamed.carry (h : d.TripNamed n q) (hq : Stands q q') (hd : d.TripKept d') :
    d'.TripNamed n q' := by
  rcases hd with hnone | ⟨hseq, hstate⟩
  · exact tripNamed_of_none hnone
  · intro seq hs
    obtain ⟨r, hr, hrseq, hsubject, hkind⟩ := h seq (hseq ▸ hs)
    obtain ⟨r', hr', hrseq', hkind', hsubject'⟩ := hq r hr
    refine ⟨r', hr', hrseq'.trans hrseq, hsubject'.trans hsubject, ?_⟩
    rw [hstate, hkind']
    exact hkind

/-- Records may leave the queue that are no trip record of the entry under its TRIP_SEQ. -/
theorem ChannelDynamic.TripNamed.filter (h : d.TripNamed n q) {p : AlarmRecord → Bool}
    (hp : ∀ r, d.tripSeq = some r.seq → r.subject = .channel n → r.kind = .high ∨ r.kind = .low → p r = true) :
    d.TripNamed n (q.filter p) := by
  intro seq hs
  obtain ⟨r, hr, hseq, hsubject, hkind⟩ := h seq hs
  refine ⟨r, List.mem_filter.2 ⟨hr, hp r (hseq ▸ hs) hsubject ?_⟩, hseq, hsubject, hkind⟩
  exact hkind.imp And.right And.right

/-- Out of HIGH and LOW there is no TRIP_SEQ. -/
theorem ChannelDynamic.TripNamed.untripped (h : d.TripNamed n q) (ht : d.state.isTripped = false) : d.tripSeq = none := by
  cases hs : d.tripSeq with
  | none => rfl
  | some seq =>
    obtain ⟨r, -, -, -, hkind⟩ := h seq hs
    rcases hkind with ⟨hstate, -⟩ | ⟨hstate, -⟩ <;> rw [hstate] at ht <;> cases ht

end

/-- The entries' TRIP_SEQs are kept while the records stand. -/
theorem State.TripsNamed.carry {s t : State} (hs : s.TripsNamed) (hq : Stands s.alarms t.alarms)
    (hd : ∀ n : Fin Config.channelCount, s.channels[n].dyn.TripKept t.channels[n].dyn) : t.TripsNamed :=
  t.tripsNamed_iff.2 fun n => (s.tripsNamed_iff.1 hs n).carry hq (hd n)

/-- One entry is changed while the records stand. -/
theorem State.TripsNamed.carry_set {s t : State} {n : Fin Config.channelCount} {e : Channel} (hs : s.TripsNamed)
    (hq : Stands s.alarms t.alarms) (ht : t.channels = s.channels.set n e) (he : e.dyn.TripNamed n t.alarms) :
    t.TripsNamed := by
  refine t.tripsNamed_iff.2 fun m => ?_
  rw [ht, getElem_set_table]
  split
  · next hm => exact hm ▸ he
  · exact (s.tripsNamed_iff.1 hs m).carry hq (.refl _)

/-! ### The taking of a hit (R34 to R40) -/

/-- A trip names the record that its alarm was appended as or coalesced into, of the KIND of its side (R34). -/
theorem State.TripsNamed.trip {s : State} (hs : s.TripsNamed) (n : Fin Config.channelCount) (side : Side) (v : Int) :
    (s.trip n side.tripped side.kind v).TripsNamed := by
  rw [s.trip_eq]
  refine hs.carry_set (s.stands_takeAlarm _) rfl fun seq hseq => ?_
  obtain ⟨r, hr, hrseq, hkind, hsubject⟩ := State.takeAlarm_names hseq
  refine ⟨r, hr, hrseq, hsubject, ?_⟩
  cases side
  · exact .inl ⟨rfl, hkind⟩
  · exact .inr ⟨rfl, hkind⟩

theorem State.TripsNamed.returnToNormal {s : State} (hs : s.TripsNamed) (n : Fin Config.channelCount) (v : Int) :
    (s.returnToNormal n v).TripsNamed := by
  rw [s.returnToNormal_eq]
  exact hs.carry_set (s.stands_raise _) rfl (ChannelDynamic.tripNamed_of_none rfl)

theorem State.TripsNamed.updateDyn {s : State} (hs : s.TripsNamed) {n : Fin Config.channelCount}
    {f : ChannelDynamic → ChannelDynamic} (hf : s.channels[n].dyn.TripKept (f s.channels[n].dyn)) :
    (s.updateDyn n f).TripsNamed :=
  hs.carry_set (.refl _) rfl ((s.tripsNamed_iff.1 hs n).carry (.refl _) hf)

/-- An evaluation that raises no trip clears TRIP_SEQ, or keeps it with STATE: out of HIGH and LOW there was none. -/
theorem Evaluated.tripKept {cfg : ChannelConfig} {d d' : ChannelDynamic} (h : Evaluated cfg d d')
    (hd : d.state.isTripped = false → d.tripSeq = none) (hseq : d'.tripSeq = d.tripSeq) : d.TripKept d' := by
  cases h with
  | within ht | pending _ _ ht => exact .inl (hd ht)
  | tripped _ _ ht => exact .inl (hseq.trans (hd ht))
  | counting => exact .inr ⟨rfl, rfl⟩
  | returned => exact .inl rfl

theorem State.TripsNamed.evalSample {s : State} (hs : s.TripsNamed) (n : Fin Config.channelCount) (v : Int) :
    (s.evalSample n v).TripsNamed := by
  obtain ⟨b, hb, hcases⟩ := s.evalSample_cases n v
  have base : b.TripsNamed ∧ b.channels = s.channels := by
    rcases hb with ⟨-, rfl⟩ | ⟨-, rfl⟩
    · exact ⟨hs, rfl⟩
    · have same : (s.resumed n v).channels = s.channels := s.raise_channels _
      exact ⟨hs.carry (s.stands_raise _) fun m => by rw [same]; exact .refl _, same⟩
  obtain ⟨hbase, hsame⟩ := base
  rcases hcases with ⟨f, h, hf⟩ | ⟨side, h⟩ | ⟨b', hb', h⟩
  · obtain ⟨d, hd, hdyn⟩ := s.evaluated_evalSample n v
    have entry : d = f b.channels[n].dyn := by
      have left : (s.evalSample n v).channels[n] = { s.channels[n] with dyn := d } := by
        rw [hdyn]
        exact (getElem_set_table ..).trans (if_pos rfl)
      rw [h, State.updateDyn_channels, getElem_set_table, if_pos rfl] at left
      exact (congrArg Channel.dyn left).symm
    obtain ⟨-, -, -, -, hseq⟩ := hf b.channels[n].dyn
    rw [h]
    refine hbase.updateDyn ?_
    rw [entry, ← hsame] at hd
    exact hd.tripKept (b.tripsNamed_iff.1 hbase n).untripped hseq
  · rw [h]
    exact hbase.trip n side v
  · rw [h]
    rcases hb' with rfl | ⟨run, rfl⟩
    · exact hbase.returnToNormal n v
    · exact (hbase.updateDyn (f := fun d => { d with run := run }) (.inr ⟨rfl, rfl⟩)).returnToNormal n v

theorem State.TripsNamed.takeHit {s : State} (hs : s.TripsNamed) (n : Fin Config.channelCount) (c : Cell) :
    (s.takeHit n c).TripsNamed := by
  obtain ⟨halarms, hdyn⟩ := s.takeHit_of_evaluated n c
  have recorded : (s.recorded n c).TripsNamed := hs.updateDyn (.inr ⟨rfl, rfl⟩)
  refine (recorded.evalSample n (s.channels[n].cfg.condition c.value)).carry ?_ fun m => ?_
  · rw [halarms]
    exact .refl _
  · obtain ⟨hstate, hseq⟩ := hdyn m
    exact .inr ⟨hseq, hstate⟩

/-! ### What a command keeps -/

/-- What the steps rely on: no two records share a SEQ (R54), an entry that is not valid has no TRIP_SEQ (R3), and R44. -/
structure State.TripsReady (s : State) : Prop where
  distinct : (s.alarms.map (fun r => r.seq)).Nodup
  blank : ∀ n : Fin Config.channelCount, s.channels[n].valid = false → s.channels[n].dyn.tripSeq = none
  named : s.TripsNamed

/-- The part goes from a state that is ready to one whose TRIP_SEQs name held records. -/
def KeepsTrips (s t : State) : Prop := s.TripsReady → t.TripsNamed

/-- The entries and the queue are the same. -/
structure State.SameTrips (s t : State) : Prop where
  channels : t.channels = s.channels
  alarms : t.alarms = s.alarms

theorem State.SameTrips.refl (s : State) : s.SameTrips s := ⟨rfl, rfl⟩

theorem State.sameTrips_of_content {s t : State} (h : t.content = s.content) : s.SameTrips t :=
  ⟨congrArg Content.channels h, congrArg Content.alarms h⟩

theorem State.SameTrips.trans {s t u : State} (h : s.SameTrips t) (h' : t.SameTrips u) : s.SameTrips u :=
  ⟨h'.channels.trans h.channels, h'.alarms.trans h.alarms⟩

theorem KeepsTrips.congr {s s' t t' : State} (h : KeepsTrips s t) (hs : s.SameTrips s') (ht : t.SameTrips t') :
    KeepsTrips s' t' := by
  obtain ⟨hsc, hsa⟩ := hs
  obtain ⟨htc, hta⟩ := ht
  rintro ⟨distinct, blank, named⟩
  rw [hsa] at distinct
  rw [hsc] at blank
  unfold State.TripsNamed at named ⊢
  rw [hsc, hsa] at named
  rw [htc, hta]
  exact h ⟨distinct, blank, named⟩

/-- A change that starts from a part of the same entries and queue. -/
theorem KeepsTrips.from_same {s s' t : State} (h : KeepsTrips s t) (hs : s.SameTrips s') : KeepsTrips s' t :=
  h.congr hs (.refl t)

/-- Every TRIP_SEQ is cleared, or kept with STATE, while the records stand. -/
theorem KeepsTrips.of_kept {s t : State} (hq : Stands s.alarms t.alarms)
    (hd : ∀ n : Fin Config.channelCount, s.channels[n].dyn.TripKept t.channels[n].dyn) : KeepsTrips s t :=
  fun hs => hs.named.carry hq hd

/-- No entry is touched while the records stand. -/
theorem KeepsTrips.of_stands {s t : State} (hc : t.channels = s.channels) (hq : Stands s.alarms t.alarms) : KeepsTrips s t :=
  .of_kept hq fun n => by rw [hc]; exact .refl _

theorem KeepsTrips.of_same {s t : State} (h : s.SameTrips t) : KeepsTrips s t :=
  .of_stands h.channels (h.alarms ▸ .refl _)

theorem KeepsTrips.refl (s : State) : KeepsTrips s s := .of_same (.refl s)

/-- Every record leaves, and every TRIP_SEQ is cleared. -/
theorem KeepsTrips.of_blank {s t : State}
    (h : s.TripsReady → ∀ n : Fin Config.channelCount, t.channels[n].dyn.tripSeq = none) : KeepsTrips s t :=
  fun hs => t.tripsNamed_iff.2 fun n => ChannelDynamic.tripNamed_of_none (h hs n)

/-! ### Records that leave -/

/-- Two entries do not share a TRIP_SEQ: its one record has one SUBJECT. -/
theorem State.TripsReady.entry_unique {s : State} (hs : s.TripsReady) {m n : Fin Config.channelCount} {seq : Nat}
    (hm : s.channels[m].dyn.tripSeq = some seq) (hn : s.channels[n].dyn.tripSeq = some seq) : m = n := by
  obtain ⟨r, hr, hrseq, hrsubject, -⟩ := hs.named m seq hm
  obtain ⟨r', hr', hrseq', hrsubject', -⟩ := hs.named n seq hn
  have same : r = r' := List.inj_on_of_nodup_map hs.distinct hr hr' (hrseq.trans hrseq'.symm)
  rw [same, hrsubject'] at hrsubject
  cases hrsubject
  rfl

/-- The record of a SEQ leaves: an entry with another TRIP_SEQ, or none, is still named. -/
theorem State.TripsNamed.removeRecord {s : State} (hs : s.TripsNamed) {n : Fin Config.channelCount} {seq : Nat}
    (h : s.channels[n].dyn.tripSeq ≠ some seq) : s.channels[n].dyn.TripNamed n (s.removeRecord seq).alarms := by
  refine (s.tripsNamed_iff.1 hs n).filter fun r hr _ _ => ?_
  have other : r.seq ≠ seq := by rintro rfl; exact h hr
  simp [other]

theorem State.stands_returnToNormal (s : State) (n : Fin Config.channelCount) (v : Int) :
    Stands s.alarms (s.returnToNormal n v).alarms := by
  rw [s.returnToNormal_eq]
  exact s.stands_raise _

theorem State.stands_acknowledge (s : State) (n : Fin Config.channelCount) : Stands s.alarms (s.acknowledge n).alarms := by
  unfold State.acknowledge
  dsimp only
  split
  · exact State.stands_returnToNormal (s.updateDyn n _) n _
  · exact .refl _

/-- The channel side of an acknowledgement clears TRIP_SEQ of its entry; the others keep theirs (R41, R42). -/
theorem State.tripsNamed_acknowledge {s : State} {n : Fin Config.channelCount}
    (h : ∀ m, m ≠ n → s.channels[m].dyn.TripNamed m s.alarms) : (s.acknowledge n).TripsNamed := by
  have cleared : s.channels[n].dyn.acknowledged.tripSeq = none := by
    unfold ChannelDynamic.acknowledged
    split <;> rfl
  refine (State.tripsNamed_iff _).2 fun m => ?_
  rw [State.acknowledge_channels, getElem_set_table]
  split
  · exact ChannelDynamic.tripNamed_of_none cleared
  · next hm => exact (h m hm).carry (s.stands_acknowledge n) (.refl _)

/-- The acknowledgement of a trip whose record leaves first (R41, R42, R67, R68). -/
theorem keepsTrips_ackRecord {s : State} {n : Fin Config.channelCount} {seq : Nat}
    (h : s.channels[n].dyn.tripSeq = some seq) : KeepsTrips s ((s.removeRecord seq).acknowledge n) :=
  fun hs => State.tripsNamed_acknowledge fun _ hm =>
    hs.named.removeRecord fun hseq => hm (hs.entry_unique hseq h)

theorem keepsTrips_ackSeq (s : State) (v : Int) : KeepsTrips s (s.ackSeq v).state := by
  unfold State.ackSeq
  split
  · exact .refl s
  · next rec _ =>
    dsimp only
    split
    · next n hn => exact keepsTrips_ackRecord (by simpa using (State.findChannel_eq_some.1 hn).1)
    · next hnone =>
      intro hs
      refine (State.tripsNamed_iff _).2 fun n => hs.named.removeRecord ?_
      simpa using State.findChannel_eq_none.1 hnone n

theorem keepsTrips_ackEntry (s : State) (n : Fin Config.channelCount) : KeepsTrips s (s.ackEntry n).state := by
  have tripped : KeepsTrips s ((s.removeTripRecord n).acknowledge n) := by
    unfold State.removeTripRecord
    split
    · next seq h => exact keepsTrips_ackRecord h
    · exact fun hs => State.tripsNamed_acknowledge fun m _ => s.tripsNamed_iff.1 hs.named m
  unfold State.ackEntry
  split
  · exact tripped
  · exact tripped
  all_goals exact .refl s

theorem keepsTrips_ack (s : State) (r : Request) : KeepsTrips s (s.ack r).state := by
  unfold State.ack
  split
  · exact keepsTrips_ackSeq s _
  · split
    · exact keepsTrips_ackEntry s _
    · exact .refl s
  all_goals exact .refl s

/-- Abandonment: the record of a SEQ leaves, and the entries forget that SEQ (R44, R63). -/
theorem keepsTrips_abandon (s : State) (seq : Nat) : KeepsTrips s (s.abandon seq) := by
  intro hs
  have alarms : (s.abandon seq).alarms = (s.removeRecord seq).alarms := rfl
  have channels : (s.abandon seq).channels = mapTable (Channel.forgetTrip seq) s.channels := rfl
  refine (State.tripsNamed_iff _).2 fun n => ?_
  rw [alarms, channels, mapTable_fin, Channel.forgetTrip]
  split
  · exact ChannelDynamic.tripNamed_of_none rfl
  · next h => exact hs.named.removeRecord h

theorem keepsTrips_resend (s : State) (seq : Nat) : KeepsTrips s (s.resendExpires seq) := by
  unfold State.resendExpires
  split
  · split
    · exact keepsTrips_abandon s seq
    · refine .of_stands rfl (.map (fun r => ?_) s.alarms)
      split <;> exact ⟨rfl, rfl, rfl⟩
  · exact .refl s
  · exact .refl s

/-- An entry is cleared and its records are withdrawn; the records of the other entries stay (R70). -/
theorem keepsTrips_withdrawn (s : State) (n : Fin Config.channelCount) {f : Channel → Channel}
    (hf : ∀ e, (f e).dyn.tripSeq = none) : KeepsTrips s ((s.updateChannel n f).withdrawChannel n) := by
  intro hs
  refine (State.tripsNamed_iff _).2 fun m => ?_
  have channels : ((s.updateChannel n f).withdrawChannel n).channels = s.channels.set n (f s.channels[n]) := rfl
  have alarms : ((s.updateChannel n f).withdrawChannel n).alarms
      = s.alarms.filter (fun r => !(r.subject == .channel n)) := rfl
  rw [channels, alarms, getElem_set_table]
  split
  · exact ChannelDynamic.tripNamed_of_none (hf _)
  · next hm =>
    refine (s.tripsNamed_iff.1 hs.named m).filter fun r _ hsubject _ => ?_
    simp [hsubject, hm]

/-- LOOP_LIMIT records are no trip records (R71). -/
theorem keepsTrips_withdrawLoop {s t : State} (h : s.SameTrips t) (k : Fin Config.loopCount) :
    KeepsTrips s (t.withdrawLoop k) := by
  refine KeepsTrips.from_same (s := t) (fun ht => ?_) ⟨h.channels.symm, h.alarms.symm⟩
  refine (State.tripsNamed_iff _).2 fun m => (t.tripsNamed_iff.1 ht.named m).filter fun r _ _ hkind => ?_
  rcases hkind with hkind | hkind <;> simp [hkind]

/-! ### Installs, REMOVE and settings -/

/-- A re-install keeps a trip; a pending state, which has none, becomes NORMAL (R50). -/
theorem ChannelDynamic.tripKept_reinstalled {d : ChannelDynamic} (mode : Mode) (cfg : ChannelConfig)
    (hd : d.state.isTripped = false → d.tripSeq = none) : d.TripKept (d.reinstalled mode cfg) := by
  unfold ChannelDynamic.reinstalled
  split
  case h_4 | h_5 => exact .inl (hd (by simp_all [ChannelState.isTripped]))
  all_goals exact .inr ⟨rfl, rfl⟩

theorem keepsTrips_installChannel (s : State) (n : Fin Config.channelCount) (cfg : ChannelConfig) :
    KeepsTrips s (s.installChannel n cfg) := by
  unfold State.installChannel
  dsimp only
  split
  · intro hs
    have before := s.tripsNamed_iff.1 hs.named n
    exact hs.named.carry_set (.refl _) rfl
      (before.carry (.refl _) (ChannelDynamic.tripKept_reinstalled _ cfg before.untripped))
  · exact (keepsTrips_withdrawn _ n fun _ => rfl).from_same ⟨rfl, rfl⟩

theorem keepsTrips_installLoop (s : State) (k : Fin Config.loopCount) (cfg : LoopConfig) :
    KeepsTrips s (s.installLoop k cfg) := by
  unfold State.installLoop
  split
  · exact keepsTrips_withdrawLoop ⟨rfl, rfl⟩ k
  · split
    · exact keepsTrips_withdrawLoop ⟨rfl, rfl⟩ k
    · exact .of_same ⟨rfl, rfl⟩

theorem keepsTrips_endScan (s : State) (c : Cell) : KeepsTrips s (s.endScan c) := by
  have completed : ∀ (t : State) (reply : Reply), ({ t with agent := .idle } : State).SameTrips
      (({ t with agent := .idle } : State).complete c reply) := fun t reply => State.sameTrips_of_content (by simp)
  have ended : ∀ (t : State) (reply : Reply), t.SameTrips (({ t with agent := .idle } : State).complete c reply) :=
    fun t reply => ⟨(completed t reply).channels, (completed t reply).alarms⟩
  unfold State.endScan
  split
  · exact .of_same (ended s _)
  · next target _ =>
    refine KeepsTrips.congr (s := s) (t := (s.judge target).state) ?_ (.refl s) (ended _ _)
    unfold State.judge
    split
    · split
      · exact .refl s
      · exact keepsTrips_installChannel s _ _
    · split
      · exact .refl s
      · exact keepsTrips_installLoop s _ _

theorem keepsTrips_removeRule (s : State) (r : Request) : KeepsTrips s (s.removeRule r).state := by
  unfold State.removeRule
  split
  · split
    · unfold State.removeEntry
      split
      · exact .refl s
      · exact keepsTrips_withdrawn s _ fun _ => rfl
    · exact .refl s
  · split
    · exact keepsTrips_withdrawLoop ⟨rfl, rfl⟩ _
    · exact .refl s
  all_goals exact .refl s

/-- A switch of the conditioner mode touches timers only (R11, R25). -/
theorem Channel.tripKept_toPass (e : Channel) : e.dyn.TripKept e.toPass.dyn := by
  unfold Channel.toPass
  split <;> exact .inr ⟨rfl, rfl⟩

theorem Channel.tripKept_toActive (e : Channel) : e.dyn.TripKept e.toActive.dyn := by
  rw [Channel.toActive_eq]
  exact .inr ⟨rfl, rfl⟩

theorem keepsTrips_withSettings (s : State) (p : Settings) : KeepsTrips s (s.withSettings p) := by
  unfold State.withSettings
  split
  · exact .of_same ⟨rfl, rfl⟩
  · unfold State.switchTo
    split
    · refine .of_kept (.refl _) fun n => ?_
      dsimp only [State.mapLoops, State.mapChannels]
      rw [mapTable_fin]
      exact Channel.tripKept_toPass _
    · refine .of_kept (.refl _) fun n => ?_
      dsimp only [State.mapLoops, State.mapChannels]
      rw [mapTable_fin]
      exact Channel.tripKept_toActive _

theorem keepsTrips_setPartRule (s : State) (r : Request) : KeepsTrips s (s.setPartRule r).state := by
  unfold State.setPartRule
  split
  · split
    · exact .refl s
    · exact .refl s
    · exact .refl s
    · exact keepsTrips_withSettings s _
  all_goals exact .refl s

/-! ### Resets, slots, expiries and arrivals -/

theorem keepsTrips_coldCondition (s : State) : KeepsTrips s s.coldCondition :=
  .of_blank fun _ n => by simp [State.coldCondition, State.reset, Channel.coldReset, ChannelDynamic.cleared]

/-- A warm reset clears the valid entries; the others have no TRIP_SEQ (R52). -/
theorem keepsTrips_warmReset (s : State) : KeepsTrips s s.warmReset := by
  refine .of_blank fun hs n => ?_
  rw [s.warmReset_channels, mapTable_fin, Channel.warmReset]
  split
  · rfl
  · next h => exact hs.blank n (by simpa using h)

theorem keepsTrips_coldReset (edge : ColdEdge) {s t : State} (h : execColdReset edge s = .next t) : KeepsTrips s t := by
  have cold : ∀ t : State, s.coldCondition.SameTrips t → KeepsTrips s t :=
    fun t ht => (keepsTrips_coldCondition s).congr (.refl s) ht
  unfold execColdReset at h
  cases edge with
  | resetFalls | powerUpBegins =>
    cases h
    exact cold _ ⟨rfl, rfl⟩
  | resetRises | powerUpEnds =>
    cases h
    split
    · exact cold _ ⟨rfl, rfl⟩
    · exact .refl s

theorem keepsTrips_restartEdge (edge : RestartEdge) {s t : State} (h : execWarmReset edge s = .next t) :
    KeepsTrips s t := by
  have warm : KeepsTrips s ({ s with restartLow := true } : State).warmReset :=
    (keepsTrips_warmReset _).from_same ⟨rfl, rfl⟩
  unfold execWarmReset at h
  cases edge with
  | rises =>
    cases h
    exact .of_same ⟨rfl, rfl⟩
  | falls heldLowNs =>
    cases h
    split
    · exact .refl s
    · split
      · exact .of_same ⟨rfl, rfl⟩
      · unfold State.restartFalls
        dsimp only
        split
        · exact warm
        · split
          · exact warm.congr (.refl s) ⟨rfl, rfl⟩
          · exact .of_same ⟨rfl, rfl⟩

theorem keepsTrips_arrival (s : State) (p : Port) (a : Arrival) : KeepsTrips s (s.takeArrival p a) := by
  rcases s.takeArrival_hit_or_stands p a with ⟨n, c, h⟩ | ⟨hc, hq⟩
  · have taken : (s.goodTaken p).SameTrips s := State.sameTrips_of_content (by simp)
    rw [h]
    exact KeepsTrips.from_same (fun hs => hs.named.takeHit n c) taken
  · exact .of_stands hc hq

/-- An announcement changes one record in its place (R62). -/
theorem Stands.announce {resend : Nat} {q q' : List AlarmRecord} {sent : AlarmRecord}
    (h : announce resend q = some (sent, q')) : Stands q q' := by
  obtain ⟨older, r, younger, rfl, rfl, -, -⟩ := announce_eq_some h
  exact .replace older younger r _ ⟨rfl, rfl, rfl⟩

theorem keepsTrips_northSlot (s : State) : KeepsTrips s s.fillNorthSlot := by
  have forwarded : KeepsTrips s s.sendForwarded := .of_same (State.sameTrips_of_content s.content_sendForwarded)
  unfold State.fillNorthSlot
  split
  · exact .of_same ⟨rfl, rfl⟩
  · split
    · exact forwarded
    · unfold State.sendInserted
      split
      · exact .of_same ⟨rfl, rfl⟩
      · split
        · next h => exact .of_stands rfl (.announce h)
        · exact forwarded

theorem State.sameTrips_southSlot (s : State) : s.SameTrips s.fillSouthSlot := by
  unfold State.fillSouthSlot
  split
  · exact ⟨rfl, rfl⟩
  · split
    · unfold State.contended
      split <;> exact ⟨rfl, rfl⟩
    all_goals exact ⟨rfl, rfl⟩

theorem keepsTrips_deadline (s : State) (n : Fin Config.channelCount) : KeepsTrips s (s.deadlineExpires n) := by
  by_cases h : s.channels[n].dyn.state = .stale
  · have expired : s.deadlineExpires n = s.updateChannel n Channel.stopDeadline := if_pos h
    rw [expired]
    exact fun hs => hs.named.carry_set (.refl _) rfl (s.tripsNamed_iff.1 hs.named n)
  · rw [State.deadlineExpires_of_live h]
    exact fun hs => hs.named.carry_set (s.stands_raise _) rfl (ChannelDynamic.tripNamed_of_none rfl)

theorem keepsTrips_takeStep (s : State) (k : Fin Config.loopCount) : KeepsTrips s (s.takeStep k) := by
  unfold State.takeStep
  dsimp only
  split
  · exact .of_same ⟨rfl, rfl⟩
  · exact .of_same ⟨rfl, rfl⟩
  · unfold State.stepLoop
    dsimp only
    split
    · exact .of_stands (State.raise_channels _ _) (State.stands_raise (s.updateLoop k _) _)
    · exact .of_same ⟨rfl, rfl⟩

/-! ### The takings of the Agent -/

theorem KeepsTrips.takeRequest {row : RequestRow} {execute : State → Cell → Request → State}
    (h : ∀ b c r, KeepsTrips b (execute b c r)) (s : State) : KeepsTrips s (s.takeRequest row execute) := by
  rcases s.takeRequest_cases row execute with ht | ⟨c, rest, -, -, -, -, ht⟩ <;> rw [ht]
  · exact .refl s
  · exact (h _ c _).from_same ⟨rfl, rfl⟩

theorem KeepsTrips.takeAndServe {row : RequestRow} {g : Gates} {rule : State → Request → Answer}
    (h : ∀ b r, KeepsTrips b (rule b r).state) (s : State) : KeepsTrips s (s.takeAndServe row g rule) := by
  refine .takeRequest (fun b c r => ?_) s
  have resolved : b.resolveProposal.SameTrips b := State.sameTrips_of_content (by simp)
  have completed : ∀ (t : State) reply, t.SameTrips (t.complete c reply) :=
    fun t reply => State.sameTrips_of_content (by simp)
  unfold State.serve
  dsimp only
  split
  · exact (KeepsTrips.refl _).congr resolved (completed _ _)
  · exact (h _ r).congr resolved (completed _ _)

theorem State.sameTrips_openPhase1Rule (s : State) (r : Request) : s.SameTrips (s.openPhase1Rule r).state := by
  unfold State.openPhase1Rule
  split
  · split <;> exact ⟨rfl, rfl⟩
  · exact ⟨rfl, rfl⟩

theorem State.sameTrips_takePhase2 (s : State) (c : Cell) (r : Request) : s.SameTrips (s.takePhase2 c r) := by
  unfold State.takePhase2
  split
  · exact State.sameTrips_of_content (State.content_complete s.openSession c _)
  · exact State.sameTrips_of_content (by simp)

theorem State.sameTrips_takeClose (s : State) (c : Cell) (r : Request) : s.SameTrips (s.takeClose c r) := by
  unfold State.takeClose
  split
  · have closed : s.SameTrips s.closeSession := ⟨rfl, rfl⟩
    exact closed.trans (State.sameTrips_of_content (State.content_complete ..))
  · exact State.sameTrips_of_content (State.content_complete s.dropProposal c _)
  · exact State.sameTrips_of_content (State.content_complete s c _)

theorem State.sameTrips_editLoadRule (s : State) (r : Request) : s.SameTrips (s.editLoadRule r).state := by
  unfold State.editLoadRule
  split
  · split <;> exact ⟨rfl, rfl⟩
  · split <;> exact ⟨rfl, rfl⟩
  all_goals exact ⟨rfl, rfl⟩

theorem State.sameTrips_editWritten {α : Type} (s : State) (v : Int) (load : α → EditBuffer) (w : FieldWrite α) :
    s.SameTrips (s.editWritten v load w).state := by
  rcases s.editWritten_cases v load w with h | ⟨cfg, -, h⟩ <;> rw [h] <;> exact ⟨rfl, rfl⟩

theorem State.sameTrips_editSetRule (s : State) (r : Request) : s.SameTrips (s.editSetRule r).state := by
  unfold State.editSetRule
  split
  · exact s.sameTrips_editWritten ..
  · exact s.sameTrips_editWritten ..
  all_goals exact ⟨rfl, rfl⟩

theorem State.sameTrips_takeCommit (s : State) (c : Cell) (r : Request) : s.SameTrips (s.takeCommit c r) := by
  have resolved : s.SameTrips s.resolveProposal := State.sameTrips_of_content (by simp)
  have completed : ∀ reply, s.resolveProposal.SameTrips (s.resolveProposal.complete c reply) :=
    fun reply => State.sameTrips_of_content (by simp)
  unfold State.takeCommit
  dsimp only
  split
  · exact resolved.trans (completed _)
  · split
    · exact resolved.trans (completed _)
    · exact resolved.trans ⟨rfl, rfl⟩

theorem State.sameTrips_manualRule (s : State) (r : Request) : s.SameTrips (s.manualRule r).state := by
  unfold State.manualRule
  split
  · split
    · split
      · unfold State.manualLoop
        split
        · exact ⟨rfl, rfl⟩
        all_goals split <;> exact ⟨rfl, rfl⟩
      · exact ⟨rfl, rfl⟩
    · exact ⟨rfl, rfl⟩
  all_goals exact ⟨rfl, rfl⟩

theorem State.sameTrips_clearRule (s : State) (r : Request) : s.SameTrips (s.clearRule r).state := by
  unfold State.clearRule
  split <;> exact ⟨rfl, rfl⟩

/-! ### Every command and every step -/

theorem KeepsTrips.happening {s t : State} {effect : State → State} (h : happening s effect = .next t)
    (he : KeepsTrips s (effect s)) : KeepsTrips s t := by
  rcases happening_cases h with ⟨-, rfl⟩ | ⟨-, rfl⟩
  · exact .refl _
  · exact he

theorem KeepsTrips.expiry {s t : State} {due : State → Bool} {effect : State → State} (h : expiry s due effect = .next t)
    (he : KeepsTrips s (effect s)) : KeepsTrips s t := by
  rcases expiry_cases h with rfl | ⟨-, rfl⟩
  · exact .refl _
  · exact he

/-- Every command keeps the TRIP_SEQs named. -/
theorem exec_keepsTrips {i : Instr} {s t : State} (h : exec i s = .next t) : KeepsTrips s t := by
  unfold exec at h
  cases i with
  | coldReset edge => exact keepsTrips_coldReset edge h
  | warmReset edge => exact keepsTrips_restartEdge edge h
  | arrival p a => exact .happening h (keepsTrips_arrival s p a)
  | northSlot => exact .happening h (keepsTrips_northSlot s)
  | southSlot => exact .happening h (.of_same s.sameTrips_southSlot)
  | deadlineExpiry n => exact .expiry h (keepsTrips_deadline s n)
  | forwardRefreshExpiry n => exact .expiry h fun hs => hs.named.updateDyn (.inr ⟨rfl, rfl⟩)
  | resendTimerExpiry seq => exact .happening h (keepsTrips_resend s seq)
  | step k => exact .expiry h (keepsTrips_takeStep s k)
  | stopTimerExpiry | refreshTimerExpiry | proposalTimerExpiry | sessionTimerExpiry =>
    exact .expiry h (.of_same ⟨rfl, rfl⟩)
  | read | unknownRequest => exact .happening h (.takeAndServe (fun b _ => .refl b) s)
  | openPhase1 => exact .happening h (.takeAndServe (fun b r => .of_same (b.sameTrips_openPhase1Rule r)) s)
  | openPhase2 => exact .happening h (.takeRequest (fun b c r => .of_same (b.sameTrips_takePhase2 c r)) s)
  | close => exact .happening h (.takeRequest (fun b c r => .of_same (b.sameTrips_takeClose c r)) s)
  | editLoad => exact .happening h (.takeAndServe (fun b r => .of_same (b.sameTrips_editLoadRule r)) s)
  | editSet => exact .happening h (.takeAndServe (fun b r => .of_same (b.sameTrips_editSetRule r)) s)
  | commit => exact .happening h (.takeRequest (fun b c r => .of_same (b.sameTrips_takeCommit c r)) s)
  | endOfScan =>
    refine .happening h ?_
    split
    · exact keepsTrips_endScan s _
    · exact .refl s
  | removeChannel | removeLoop => exact .happening h (.takeAndServe keepsTrips_removeRule s)
  | setPart => exact .happening h (.takeAndServe keepsTrips_setPartRule s)
  | ackAlarm | ackChannel => exact .happening h (.takeAndServe keepsTrips_ack s)
  | manual | manualRelease => exact .happening h (.takeAndServe (fun b r => .of_same (b.sameTrips_manualRule r)) s)
  | clearMiss | clearPart => exact .happening h (.takeAndServe (fun b r => .of_same (b.sameTrips_clearRule r)) s)
  | restart => exact .happening h (.takeAndServe (fun b _ => keepsTrips_warmReset b) s)
  | freeze => exact .happening h (.takeAndServe (fun _ _ => .of_same ⟨rfl, rfl⟩) s)

theorem keepsTrips_countBoundary (s : State) : KeepsTrips s s.countBoundary := by
  refine .of_kept (.map (fun r => ?_) s.alarms) fun n => ?_
  · unfold AlarmRecord.count
    split <;> exact ⟨rfl, rfl, rfl⟩
  · rw [s.countBoundary_channels, mapTable_fin]
    exact .inr ⟨rfl, rfl⟩

theorem keepsTrips_idle (s : State) : KeepsTrips s s.idle := by
  unfold State.idle
  split
  · exact .refl s
  · split
    · exact .of_same ⟨rfl, rfl⟩
    · exact (keepsTrips_countBoundary s).congr (.refl s) ⟨rfl, rfl⟩

/-- A part with a sound queue and sound entries whose TRIP_SEQs are named is ready for a step. -/
theorem State.tripsReady_of_sound {s : State} (hq : s.QueueSound) (hc : s.ChannelsSound) (hn : s.TripsNamed) :
    s.TripsReady := by
  obtain ⟨-, -, -, hdistinct, -⟩ := hq
  refine ⟨hdistinct, fun n hv => ?_, hn⟩
  obtain ⟨hcleared, -⟩ := hc n
  rw [hcleared hv]
  rfl

/-- Settles O56: a record leaves the queue only by what also clears the TRIP_SEQ that names it, and an entry takes a TRIP_SEQ
only from the admission of its trip's alarm. -/
theorem stepKeepsTripsNamed : Obligations.StepKeepsTripsNamed := by
  intro s t hq hc hn h
  have ready := State.tripsReady_of_sound hq hc hn
  unfold step at h
  split at h
  · have kept : KeepsTrips s t := (exec_keepsTrips h).from_same ⟨rfl, rfl⟩
    exact kept ready
  · cases h
    exact keepsTrips_idle s ready

end Sys2Proof.Machine

/-! ## O46: acknowledgement -/

namespace Sys2Proof.Machine

/-! ### The channel side (R41, R42) -/

section
variable {s : State} {n : Fin Config.channelCount} {entries : Vector Channel Config.channelCount}

/-- Without a clear run that was met, the acknowledgement sets ACKED and clears TRIP_SEQ. -/
theorem State.acknowledge_of_unmet (hs : s.channels = entries) (h : entries[n].dyn.clearMet = false) :
    s.acknowledge n =
      { s with
        channels := entries.set n { entries[n] with dyn := { entries[n].dyn with acked := true, tripSeq := none } } } := by
  subst hs
  exact if_neg (by rw [h]; nofun)

/-- A clear run that was met returns the entry to NORMAL, with LAST in its alarm. -/
theorem State.acknowledge_of_met (hs : s.channels = entries) (h : entries[n].dyn.clearMet = true) :
    s.acknowledge n = s.returnToNormal n (entries[n].dyn.last.getD 0) := by
  subst hs
  have acked : s.acknowledge n = (s.updateDyn n (fun d => { d with acked := true, tripSeq := none })).returnToNormal n
      (s.channels[n].dyn.last.getD 0) := if_pos h
  rw [acked]
  refine s.returnToNormal_updateDyn n (fun d => ?_) _
  rfl

end

/-! ### The place reserved for a response -/

/-- The part with one more response place reserved (R138). -/
def State.reserving (s : State) : State := { s with reserved := s.reserved + 1 }

/-- The completion of a request gives the place reserved for it back (R139). -/
theorem State.complete_reserving (s : State) (c : Cell) (reply : Reply) :
    s.reserving.complete c reply = s.answered c reply :=
  State.complete_eq ..

theorem State.returnToNormal_reserving (s : State) (n : Fin Config.channelCount) (v : Int) :
    s.reserving.returnToNormal n v = (s.returnToNormal n v).reserving := by
  have queue := State.raise_of_same_queue (s := s) (t := s.reserving) rfl rfl (s.channelAlarm n .cleared v)
  rw [State.returnToNormal_eq, State.returnToNormal_eq, show s.reserving.channelAlarm n .cleared v = s.channelAlarm n .cleared v
    from rfl, queue, State.reserving, s.raise_frame]
  rfl

/-- The channel side of an acknowledgement does not see the reserved place. -/
theorem State.acknowledge_reserving (s : State) (n : Fin Config.channelCount) :
    s.reserving.acknowledge n = (s.acknowledge n).reserving := by
  cases h : s.channels[n].dyn.clearMet with
  | false =>
    rw [State.acknowledge_of_unmet rfl h, State.acknowledge_of_unmet (s := s.reserving) (entries := s.channels) rfl h]
    rfl
  | true =>
    rw [State.acknowledge_of_met rfl h, State.acknowledge_of_met (s := s.reserving) (entries := s.channels) rfl h,
      State.returnToNormal_reserving]

/-- An acknowledgement does not see the reserved place. -/
theorem State.ack_reserving (s : State) (r : Request) :
    s.reserving.ack r = { state := (s.ack r).state.reserving, reply := (s.ack r).reply } := by
  unfold State.ack
  split
  · unfold State.ackSeq
    rw [show s.reserving.alarms = s.alarms from rfl]
    split
    · rfl
    · next rec _ =>
      dsimp only
      rw [show s.reserving.tripEntry rec.seq = s.tripEntry rec.seq from rfl]
      split
      · next n _ => exact congrArg (Answer.mk · _) (State.acknowledge_reserving (s.removeRecord rec.seq) n)
      · rfl
  · split
    · next n _ =>
      have removed : s.reserving.removeTripRecord n = (s.removeTripRecord n).reserving := by
        unfold State.removeTripRecord
        rw [show s.reserving.channels = s.channels from rfl]
        split <;> rfl
      unfold State.ackEntry
      rw [show s.reserving.channels = s.channels from rfl, removed, State.acknowledge_reserving]
      split <;> rfl
    · rfl
  all_goals rfl

/-! ### The taking of an ACK (R138, R147) -/

/-- The part as the rule of an ACK finds it: the request taken, and past gate 1 (R138, R141). -/
def State.atRule (s : State) (rest : List Cell) : State := ({ s with requests := rest } : State).pastGateOne

/-- Gate 1 and the taking touch different fields. -/
theorem State.atRule_eq (s : State) (rest : List Cell) : s.atRule rest = { s.pastGateOne with requests := rest } := by
  unfold State.atRule State.pastGateOne
  dsimp only
  split <;> rfl

@[simp] theorem State.atRule_channels (s : State) (rest : List Cell) : (s.atRule rest).channels = s.channels := by
  unfold State.atRule State.pastGateOne
  split <;> rfl

@[simp] theorem State.atRule_alarms (s : State) (rest : List Cell) : (s.atRule rest).alarms = s.alarms := by
  unfold State.atRule State.pastGateOne
  split <;> rfl

/-- An ACK that is taken is served by its rule in every session state (R138 to R141, R147). -/
theorem State.takeAndServe_ack {s : State} {c : Cell} {rest : List Cell} {row : RequestRow} (h : s.CanTake c rest)
    (hr : row.takes (Request.ofCell c) = true) :
    s.takeAndServe row .free State.ack =
      ((s.atRule rest).ack (Request.ofCell c)).state.answered c ((s.atRule rest).ack (Request.ofCell c)).reply := by
  have reserved : ({ s with requests := rest, reserved := s.reserved + 1 } : State).pastGateOne
      = (s.atRule rest).reserving := by
    unfold State.atRule State.pastGateOne State.reserving
    dsimp only
    split <;> rfl
  have passed : ∀ b, Gates.free.refusal b = none := fun _ => rfl
  rw [State.takeAndServe, State.takeRequest_of_canTake h hr, State.serve_of_passed (passed _), reserved, State.ack_reserving,
    State.complete_reserving]

theorem spaceOfNumber_eq_channel {n : Nat} : spaceOfNumber n = some .channel ↔ n = 0 := by
  unfold spaceOfNumber; split <;> simp_all

theorem spaceOfNumber_eq_alarm {n : Nat} : spaceOfNumber n = some .alarm ↔ n = 5 := by
  unfold spaceOfNumber; split <;> simp_all

section
variable {s : State} {c : Cell} {rest : List Cell}

/-- Either row takes an ACK but that of the other row's SPACE (log 2). -/
theorem exec_ackAlarm (h : s.CanTake c rest) (hop : c.op = 9) (hspace : c.space ≠ 0) :
    exec .ackAlarm s = .next (((s.atRule rest).ack (Request.ofCell c)).state.answered c
      ((s.atRule rest).ack (Request.ofCell c)).reply) := by
  have takes : RequestRow.ackAlarm.takes (Request.ofCell c) = true := by
    simp [RequestRow.takes, Request.ofCell, hop, spaceOfNumber_eq_channel, hspace]
  have ran : exec .ackAlarm s = .next (s.takeAndServe .ackAlarm .free State.ack) :=
    happening_of_running h.1 (fun s => s.takeAndServe .ackAlarm .free State.ack)
  rw [ran, State.takeAndServe_ack h takes]

theorem exec_ackChannel (h : s.CanTake c rest) (hop : c.op = 9) (hspace : c.space ≠ 5) :
    exec .ackChannel s = .next (((s.atRule rest).ack (Request.ofCell c)).state.answered c
      ((s.atRule rest).ack (Request.ofCell c)).reply) := by
  have takes : RequestRow.ackChannel.takes (Request.ofCell c) = true := by
    simp [RequestRow.takes, Request.ofCell, hop, spaceOfNumber_eq_alarm, hspace]
  have ran : exec .ackChannel s = .next (s.takeAndServe .ackChannel .free State.ack) :=
    happening_of_running h.1 (fun s => s.takeAndServe .ackChannel .free State.ack)
  rw [ran, State.takeAndServe_ack h takes]

end

/-! ### By sequence (R67) -/

section
variable {q older younger : List AlarmRecord} {r : AlarmRecord}

/-- A SEQ is held by one record: no other is before it or after it. -/
theorem seq_ne_of_nodup (h : ((older ++ r :: younger).map (fun x => x.seq)).Nodup) :
    ∀ x ∈ older ++ younger, x.seq ≠ r.seq := by
  rw [List.map_append, List.map_cons, List.nodup_middle, List.nodup_cons, ← List.map_append] at h
  exact fun x hx hseq => h.1 (hseq ▸ List.mem_map_of_mem hx)

/-- The search for a SEQ finds its record. -/
theorem find?_seq_of_nodup (h : ((older ++ r :: younger).map (fun x => x.seq)).Nodup) :
    (older ++ r :: younger).find? (fun x => (x.seq : Int) == (r.seq : Int)) = some r := by
  have before : older.find? (fun x => (x.seq : Int) == (r.seq : Int)) = none :=
    List.find?_eq_none.2 fun x hx => by simpa using seq_ne_of_nodup h x (List.mem_append_left _ hx)
  simp [List.find?_append, before]

/-- The removal of a SEQ takes its record out, and the others close up (R54). -/
theorem State.removeRecord_of_nodup {s : State} (hq : s.alarms = older ++ r :: younger)
    (h : (s.alarms.map (fun x => x.seq)).Nodup) : s.removeRecord r.seq = s.withAlarms (older ++ younger) := by
  rw [hq] at h
  have others : (older ++ younger).filter (fun x => !(x.seq == r.seq)) = older ++ younger :=
    List.filter_eq_self.2 fun x hx => by simpa using seq_ne_of_nodup h x hx
  have gone : (older ++ r :: younger).filter (fun x => !(x.seq == r.seq)) = older ++ younger := by
    rw [← others]
    simp
  rw [State.removeRecord, State.dropAlarms, hq, gone]

end

section
variable {s : State} {older younger : List AlarmRecord} {r : AlarmRecord}

/-- ACK of a SEQ that no entry has as its TRIP_SEQ removes the record (R67). -/
theorem State.ackSeq_of_untripped (hq : s.alarms = older ++ r :: younger) (h : (s.alarms.map (fun x => x.seq)).Nodup)
    (ht : ∀ n : Fin Config.channelCount, s.channels[n].dyn.tripSeq ≠ some r.seq) :
    s.ackSeq r.seq = { state := s.withAlarms (older ++ younger), reply := .plain .ok } := by
  have found : s.alarms.find? (fun x => (x.seq : Int) == (r.seq : Int)) = some r := by
    rw [hq] at h ⊢
    exact find?_seq_of_nodup h
  have noEntry : s.tripEntry r.seq = none := State.findChannel_eq_none.2 fun n => by simpa using ht n
  simp only [State.ackSeq, found, noEntry, State.removeRecord_of_nodup hq h]

/-- ACK of the SEQ that is an entry's TRIP_SEQ removes the record and acknowledges the entry (R41, R67). -/
theorem State.ackSeq_of_tripped (hq : s.alarms = older ++ r :: younger) (h : (s.alarms.map (fun x => x.seq)).Nodup)
    {n : Fin Config.channelCount} (ht : ∀ m : Fin Config.channelCount, s.channels[m].dyn.tripSeq = some r.seq ↔ m = n) :
    s.ackSeq r.seq = { state := (s.withAlarms (older ++ younger)).acknowledge n, reply := .plain .ok } := by
  have found : s.alarms.find? (fun x => (x.seq : Int) == (r.seq : Int)) = some r := by
    rw [hq] at h ⊢
    exact find?_seq_of_nodup h
  have entry : s.tripEntry r.seq = some n := State.findChannel_of_unique fun m => by simpa using ht m
  simp only [State.ackSeq, found, entry, State.removeRecord_of_nodup hq h]

/-- ACK of a SEQ that no record holds is NOT_FOUND (R67). -/
theorem State.ackSeq_of_absent {v : Int} (h : ∀ r ∈ s.alarms, (r.seq : Int) ≠ v) : s.ackSeq v = s.refuse .notFound := by
  have absent : s.alarms.find? (fun x => (x.seq : Int) == v) = none :=
    List.find?_eq_none.2 fun r hr => by simpa using h r hr
  simp only [State.ackSeq, absent]

end

theorem ackBySequenceRemovesTheRecord : Clause.AckBySequenceRemovesTheRecord := by
  intro s c rest h hop hspace
  have taken : exec .ackAlarm s
      = .next (((s.atRule rest).ackSeq c.value).state.answered c ((s.atRule rest).ackSeq c.value).reply) := by
    have rule : (s.atRule rest).ack (Request.ofCell c) = (s.atRule rest).ackSeq c.value := by
      simp only [State.ack, Request.ofCell, spaceOfNumber_eq_alarm.2 hspace]
    rw [exec_ackAlarm h hop (by omega), rule]
  have hchannels := s.atRule_channels rest
  have halarms := s.atRule_alarms rest
  have hbase := s.atRule_eq rest
  generalize s.atRule rest = b at taken hchannels halarms hbase
  intro p hdistinct
  rw [taken]
  refine ⟨fun older r younger hq hv => ⟨fun hnone => ?_, fun n htrip => ⟨fun hmet => ?_, fun hmet => ?_⟩⟩, fun habsent => ?_⟩
  · rw [hv, State.ackSeq_of_untripped (halarms.trans hq) (halarms ▸ hdistinct) (hchannels ▸ hnone), hbase]
    rfl
  · rw [hv, State.ackSeq_of_tripped (halarms.trans hq) (halarms ▸ hdistinct) (hchannels ▸ htrip),
      State.acknowledge_of_unmet (s := b.withAlarms _) hchannels hmet, hbase]
    rfl
  · rw [hv, State.ackSeq_of_tripped (halarms.trans hq) (halarms ▸ hdistinct) (hchannels ▸ htrip),
      State.acknowledge_of_met (s := b.withAlarms _) hchannels hmet, hbase]
    rfl
  · rw [State.ackSeq_of_absent (halarms ▸ habsent), hbase]
    rfl

/-! ### By channel (R42, R68) -/

/-- The trip record of an entry leaves the queue: every record stays that is not of its TRIP_SEQ. -/
theorem State.removeTripRecord_eq (s : State) (n : Fin Config.channelCount) :
    s.removeTripRecord n = if s.channels[n].dyn.tripSeq = none then s else
      s.withAlarms (s.alarms.filter (fun r => decide (s.channels[n].dyn.tripSeq ≠ some r.seq))) := by
  unfold State.removeTripRecord
  split
  · next seq h =>
    have others : ∀ r : AlarmRecord, decide (s.channels[n].dyn.tripSeq ≠ some r.seq) = !(r.seq == seq) := by
      intro r
      rw [h]
      by_cases hr : r.seq = seq
      · simp [hr]
      · simp [hr, Ne.symm hr]
    simp only [others]
    rw [h, if_neg nofun]
    rfl
  · next h => rw [if_pos h]

theorem State.ackEntry_of_tripped {s : State} {n : Fin Config.channelCount}
    (h : s.channels[n].dyn.state = .high ∨ s.channels[n].dyn.state = .low) :
    s.ackEntry n = { state := (s.removeTripRecord n).acknowledge n, reply := .plain .ok } := by
  rcases h with h | h <;> simp only [State.ackEntry, h]

theorem State.ackEntry_of_untripped {s : State} {n : Fin Config.channelCount} (hh : s.channels[n].dyn.state ≠ .high)
    (hl : s.channels[n].dyn.state ≠ .low) : s.ackEntry n = s.refuse .notFound := by
  unfold State.ackEntry
  split
  · contradiction
  · contradiction
  all_goals rfl

theorem channelOfNat_of_large {m : Nat} (h : 128 ≤ m) : channelOfNat m = none := dif_neg (Nat.not_lt.2 h)

theorem channelOfNat_val (n : Fin Config.channelCount) : channelOfNat n = some n := dif_pos n.isLt

theorem ackByChannelEndsTheTrip : Clause.AckByChannelEndsTheTrip := by
  intro s c rest h hop hspace p
  have taken := exec_ackChannel h hop (by omega)
  have badEntry : channelOfNat c.b1.toNat = none →
      (s.atRule rest).ack (Request.ofCell c) = (s.atRule rest).refuse .badEntry := fun hm => by
    simp only [State.ack, Request.ofCell, spaceOfNumber_eq_channel.2 hspace, hm]
  have entry : ∀ n, channelOfNat c.b1.toNat = some n →
      (s.atRule rest).ack (Request.ofCell c) = (s.atRule rest).ackEntry n := fun n hm => by
    simp only [State.ack, Request.ofCell, spaceOfNumber_eq_channel.2 hspace, hm]
  have hchannels := s.atRule_channels rest
  have halarms := s.atRule_alarms rest
  have hbase := s.atRule_eq rest
  generalize s.atRule rest = b at taken badEntry entry hchannels halarms hbase
  rw [taken]
  refine ⟨fun hlarge => ?_, fun n hn => ?_⟩
  · rw [badEntry (channelOfNat_of_large hlarge), hbase]
    rfl
  · intro e kept removed
    have hremoved : b.removeTripRecord n = removed := by
      rw [State.removeTripRecord_eq, hchannels, halarms, hbase]
      rfl
    have hentries : removed.channels = s.channels := by
      rw [← hremoved, State.removeTripRecord_channels, hchannels]
    rw [entry n (hn ▸ channelOfNat_val n)]
    refine ⟨fun hh hl => ?_, fun hstate hmet => ?_, fun hstate hmet => ?_⟩
    · rw [State.ackEntry_of_untripped (hchannels ▸ hh) (hchannels ▸ hl), hbase]
      rfl
    · rw [State.ackEntry_of_tripped (hchannels ▸ hstate), hremoved, State.acknowledge_of_unmet hentries hmet]
    · rw [State.ackEntry_of_tripped (hchannels ▸ hstate), hremoved, State.acknowledge_of_met hentries hmet]

/-! ### Other spaces (R147) -/

theorem ackRefusesOtherSpaces : Clause.AckRefusesOtherSpaces := by
  intro s c rest h hop hchannel halarm
  have rule : (s.atRule rest).ack (Request.ofCell c) = (s.atRule rest).refuse .badSpace := by
    unfold State.ack
    split
    · next hs => exact absurd (spaceOfNumber_eq_alarm.1 hs) halarm
    · next hs => exact absurd (spaceOfNumber_eq_channel.1 hs) hchannel
    all_goals rfl
  rw [exec_ackAlarm h hop hchannel, exec_ackChannel h hop halarm, rule]
  exact ⟨rfl, rfl⟩

/-- Settles O46: an ACK is served in every session state; by sequence it removes one record and acknowledges the one entry that
names it, by channel it removes the entry's trip record and acknowledges the entry. -/
theorem acknowledgementRemovesAndReturns : Obligations.AcknowledgementRemovesAndReturns :=
  ⟨ackBySequenceRemovesTheRecord, ackByChannelEndsTheTrip, ackRefusesOtherSpaces⟩

end Sys2Proof.Machine

/-! ## O22: admission to the Alarm Queue -/

namespace Sys2Proof.Machine

/-! ### The SEQ a record takes (R59) -/

/-- The search for a free SEQ passes held candidates only, and stops at one that no record holds unless its fuel runs out. -/
theorem freeSeq_spec (q : List AlarmRecord) (fuel : Nat) {candidate : Nat} (hc : candidate < 256) :
    ∃ j ≤ fuel, freeSeq q fuel candidate = (candidate + j) % 256
      ∧ (∀ i < j, ∃ r ∈ q, r.seq = (candidate + i) % 256)
      ∧ (j < fuel → ∀ r ∈ q, r.seq ≠ freeSeq q fuel candidate) := by
  induction fuel generalizing candidate with
  | zero => exact ⟨0, Nat.le_refl 0, (Nat.mod_eq_of_lt hc).symm, nofun, nofun⟩
  | succ fuel ih =>
    unfold freeSeq
    split
    · next held =>
      obtain ⟨j, hj, hseq, hpassed, hfree⟩ := ih (candidate := wrap8 candidate) (Nat.mod_lt _ (by decide))
      unfold wrap8 at hseq hpassed
      refine ⟨j + 1, by omega, by rw [wrap8, hseq]; omega, fun i hi => ?_, fun hlt => hfree (by omega)⟩
      cases i with
      | zero =>
        obtain ⟨r, hr, hrseq⟩ := List.any_eq_true.1 held
        exact ⟨r, hr, by rw [beq_iff_eq.1 hrseq]; omega⟩
      | succ i =>
        obtain ⟨r, hr, hrseq⟩ := hpassed i (by omega)
        exact ⟨r, hr, by omega⟩
    · next free =>
      refine ⟨0, Nat.zero_le _, (Nat.mod_eq_of_lt hc).symm, nofun, fun _ r hr hseq => free ?_⟩
      exact List.any_eq_true.2 ⟨r, hr, by simp [hseq]⟩

/-- Candidates that are all held are no more than the records: no two of them are the same number. -/
theorem held_candidates_le {q : List AlarmRecord} {candidate j : Nat} (hj : j ≤ 256)
    (h : ∀ i < j, ∃ r ∈ q, r.seq = (candidate + i) % 256) : j ≤ q.length := by
  have distinct : ((List.range j).map (fun i => (candidate + i) % 256)).Nodup := by
    refine List.nodup_range.map_on fun i hi k hk hik => ?_
    rw [List.mem_range] at hi hk
    omega
  have held : (List.range j).map (fun i => (candidate + i) % 256) ⊆ q.map (·.seq) := by
    intro seq hseq
    obtain ⟨i, hi, rfl⟩ := List.mem_map.1 hseq
    obtain ⟨r, hr, hrseq⟩ := h i (List.mem_range.1 hi)
    exact List.mem_map.2 ⟨r, hr, hrseq⟩
  simpa using (List.subperm_of_subset distinct held).length_le

/-- Among at most 31 records the first free SEQ is found within 32 candidates (R59). -/
theorem State.takeSeq_spec {s : State} (hlen : s.alarms.length ≤ 31) (hnext : s.nextSeq < 256) :
    (∃ j, j < 32 ∧ s.takeSeq = (s.nextSeq + j) % 256 ∧ ∀ i < j, ∃ r ∈ s.alarms, r.seq = (s.nextSeq + i) % 256)
      ∧ ∀ r ∈ s.alarms, r.seq ≠ s.takeSeq := by
  obtain ⟨j, hj, hseq, hheld, hfree⟩ := freeSeq_spec s.alarms 256 hnext
  have hle := held_candidates_le hj hheld
  exact ⟨⟨j, by omega, hseq, hheld⟩, hfree (by omega)⟩

theorem recordTakesFirstFreeSeq : Clause.RecordTakesFirstFreeSeq := by
  intro s hlen hnext
  obtain ⟨hfirst, hfree⟩ := State.takeSeq_spec hlen (Nat.lt_succ_of_le hnext)
  exact ⟨hfirst, hfree, fun _ => rfl⟩

/-! ### Coalescing (R56) -/

@[simp] theorem AlarmRecord.absorbs_iff (r : AlarmRecord) (a : Alarm) :
    r.absorbs a = true ↔ r.kind = a.kind ∧ r.phase = .new ∧ r.attempts = 0 := by
  simp [AlarmRecord.absorbs, and_assoc]

/-- The youngest record of the alarm's subject absorbs it. -/
theorem State.takeAlarm_of_absorbs {s : State} {a : Alarm} {older younger : List AlarmRecord} {r : AlarmRecord}
    (hq : s.alarms = older ++ r :: younger) (hr : r.subject = a.subject) (hy : ∀ x ∈ younger, x.subject ≠ a.subject)
    (ha : r.absorbs a = true) :
    s.takeAlarm a = (s.withAlarms (older ++ r.absorb a :: younger), .coalesced r.seq) := by
  have youngestFirst : s.alarms.reverse = younger.reverse ++ r :: older.reverse := by simp [hq]
  have absorbed : coalesce a s.alarms.reverse = some (younger.reverse ++ r.absorb a :: older.reverse, r.seq) := by
    rw [youngestFirst, coalesce_of_youngest (fun x hx => hy x (List.mem_reverse.1 hx)) hr, if_pos ha]
  simp [State.takeAlarm, absorbed]

theorem alarmCoalescesIntoYoungestRecord : Clause.AlarmCoalescesIntoYoungestRecord :=
  fun _ _ _ _ _ hq hr hy hkind hphase hattempts =>
    State.takeAlarm_of_absorbs hq hr hy ((AlarmRecord.absorbs_iff _ _).2 ⟨hkind, hphase, hattempts⟩)

/-! ### Appended or lost (R57, R58) -/

/-- The LOST record with one more alarm counted, as one update. -/
theorem AlarmRecord.countLost_eq (r : AlarmRecord) (alert : Bool) :
    r.countLost alert =
      let grown := { r with value := min (r.value + 1) 32767, alert := r.alert || alert }
      if r.phase = .sent then { grown with phase := .new, attempts := 0, resend := .stopped } else grown := by
  unfold AlarmRecord.countLost
  split <;> simp [*]

/-- A change of the records that `p` holds of is a change in place where it holds of one. -/
theorem map_ite_of_unique {p : AlarmRecord → Prop} [DecidablePred p] {older younger : List AlarmRecord} {r : AlarmRecord}
    (f : AlarmRecord → AlarmRecord) (hr : p r) (hothers : ∀ x ∈ older ++ younger, ¬p x) :
    (older ++ r :: younger).map (fun x => if p x then f x else x) = older ++ f r :: younger := by
  have kept : ∀ l : List AlarmRecord, (∀ x ∈ l, ¬p x) → l.map (fun x => if p x then f x else x) = l :=
    fun l hl => (List.map_congr_left fun x hx => if_neg (hl x hx)).trans l.map_id
  rw [List.map_append, List.map_cons, if_pos hr, kept older fun x hx => hothers x (List.mem_append_left _ hx),
    kept younger fun x hx => hothers x (List.mem_append_right _ hx)]

theorem alarmIsAppendedOrLost : Clause.AlarmIsAppendedOrLost := by
  intro s a unabsorbed append
  rcases s.takeAlarm_cases a with
    ⟨older, r, younger, hq, hr, habsorbs, hy, -⟩ | ⟨hlen, h⟩ | ⟨hlen, ⟨x, hx, hlost⟩, h⟩ | ⟨hlen, hnone, h⟩
  · obtain ⟨hkind, hphase, hattempts⟩ := (AlarmRecord.absorbs_iff r a).1 habsorbs
    rcases unabsorbed older r younger hq hr hy with h | h | h <;> contradiction
  · exact ⟨fun _ => h, fun hfull => by omega, fun _ _ _ hfull => by omega⟩
  · refine ⟨fun hshort => by omega, fun _ hnone => absurd hlost (hnone x hx), fun older lost younger _ hq hkind hothers => ?_⟩
    rw [h, hq, map_ite_of_unique (·.countLost a.alert) hkind hothers, AlarmRecord.countLost_eq]
    rfl
  · refine ⟨fun hshort => by omega, fun _ _ => h, fun older lost younger _ hq hkind _ => ?_⟩
    exact absurd hkind (hnone lost (by simp [hq]))

/-- Settles O22: coalescing by the youngest record of the subject, the two outcomes of an alarm that no record absorbs, and the
pigeonhole by which a free SEQ is found. -/
theorem alarmsAreAdmittedInOrder : Obligations.AlarmsAreAdmittedInOrder :=
  ⟨alarmCoalescesIntoYoungestRecord, alarmIsAppendedOrLost, recordTakesFirstFreeSeq⟩

end Sys2Proof.Machine

/-! ## O51: the laws of the Alarm Queue -/

namespace Sys2Proof.Machine

/-! ### The laws of the records alone -/

/-- What `State.QueueSound` says of the records, whatever the part is otherwise (R54, R57, R58). -/
structure QueueShape (q : List AlarmRecord) : Prop where
  length_le : q.length ≤ 32
  lost_le : (q.filter (fun r => r.kind == .lost)).length ≤ 1
  lost_of_full : q.length = 32 → ∃ r ∈ q, r.kind = .lost
  distinct : (q.map (fun r => r.seq)).Nodup
  sound : ∀ r ∈ q, r.Sound

theorem QueueShape.nil : QueueShape [] := ⟨by simp, by simp, nofun, by simp, by simp⟩

/-- Records leave, and the others close up in order (R54): a full queue that loses none still holds the LOST record. -/
theorem QueueShape.sublist {q q' : List AlarmRecord} (h : QueueShape q) (hq : q'.Sublist q) : QueueShape q' where
  length_le := hq.length_le.trans h.length_le
  lost_le := (hq.filter _).length_le.trans h.lost_le
  lost_of_full hfull := by
    have same : q' = q := hq.eq_of_length_le (hfull ▸ h.length_le)
    exact same ▸ h.lost_of_full (same ▸ hfull)
  distinct := (hq.map _).nodup h.distinct
  sound r hr := h.sound r (hq.subset hr)

/-- Records change in their places with SEQ and KIND kept, and each stays sound. -/
theorem QueueShape.of_same {q q' : List AlarmRecord} (h : QueueShape q) (hseq : q'.map (·.seq) = q.map (·.seq))
    (hkind : q'.map (·.kind) = q.map (·.kind)) (hsound : ∀ r ∈ q', r.Sound) : QueueShape q' := by
  have hlen : q'.length = q.length := by simpa using congrArg List.length hseq
  have lostCount : ∀ l : List AlarmRecord, (l.filter (fun r => r.kind == .lost)).length = (l.map (·.kind)).count .lost := by
    intro l
    rw [← List.countP_eq_length_filter, List.count, List.countP_map]
    rfl
  refine ⟨hlen ▸ h.length_le, ?_, fun hfull => ?_, hseq ▸ h.distinct, hsound⟩
  · rw [lostCount, hkind, ← lostCount]
    exact h.lost_le
  · have held : .lost ∈ q.map (·.kind) := List.mem_map.2 (h.lost_of_full (hlen ▸ hfull))
    exact List.mem_map.1 (hkind ▸ held)

/-- Every record is changed by one function that keeps SEQ and KIND. -/
theorem QueueShape.map {q : List AlarmRecord} (h : QueueShape q) {f : AlarmRecord → AlarmRecord}
    (hsame : ∀ r, (f r).seq = r.seq ∧ (f r).kind = r.kind) (hsound : ∀ r ∈ q, r.Sound → (f r).Sound) :
    QueueShape (q.map f) := by
  refine h.of_same (by simp [Function.comp_def, hsame]) (by simp [Function.comp_def, hsame]) fun r hr => ?_
  obtain ⟨o, ho, rfl⟩ := List.mem_map.1 hr
  exact hsound o ho (h.sound o ho)

/-- What holds of every record still does when one is replaced by a record it holds of. -/
theorem forall_mem_replace {P : AlarmRecord → Prop} {older younger : List AlarmRecord} {r r' : AlarmRecord}
    (h : ∀ x ∈ older ++ r :: younger, P x) (hr : P r → P r') : ∀ x ∈ older ++ r' :: younger, P x := by
  intro x hx
  rcases List.mem_append.1 hx with hx | hx
  · exact h x (by simp [hx])
  · rcases List.mem_cons.1 hx with rfl | hx
    · exact hr (h r (by simp))
    · exact h x (by simp [hx])

/-- One record is changed in its place, with SEQ and KIND kept. -/
theorem QueueShape.replace {older younger : List AlarmRecord} {r r' : AlarmRecord} (h : QueueShape (older ++ r :: younger))
    (hseq : r'.seq = r.seq) (hkind : r'.kind = r.kind) (hsound : r.Sound → r'.Sound) :
    QueueShape (older ++ r' :: younger) :=
  h.of_same (by simp [hseq]) (by simp [hkind]) (forall_mem_replace h.sound hsound)

/-- A record is appended: an ordinary one below 31 records, the LOST one where there is none (R57, R58). -/
theorem QueueShape.append {q : List AlarmRecord} {r : AlarmRecord} (h : QueueShape q) (hlen : q.length ≤ 31)
    (hordinary : r.kind ≠ .lost → q.length < 31) (hlost : r.kind = .lost → ∀ x ∈ q, x.kind ≠ .lost)
    (hseq : ∀ x ∈ q, x.seq ≠ r.seq) (hsound : r.Sound) : QueueShape (q ++ [r]) where
  length_le := by simpa using Nat.lt_succ_of_le hlen
  lost_le := by
    by_cases hr : r.kind = .lost
    · have none : q.filter (fun r => r.kind == .lost) = [] := List.filter_eq_nil_iff.2 fun x hx => by simpa using hlost hr x hx
      simp [List.filter_append, none, hr]
    · simpa [List.filter_append, hr] using h.lost_le
  lost_of_full hfull := by
    have hr : r.kind = .lost := by
      by_contra hr
      have := hordinary hr
      simp only [List.length_append, List.length_singleton] at hfull
      omega
    exact ⟨r, by simp, hr⟩
  distinct := by
    rw [List.map_append, List.map_singleton, List.nodup_append]
    refine ⟨h.distinct, List.nodup_singleton _, fun seq hmem other hother => ?_⟩
    obtain ⟨x, hx, rfl⟩ := List.mem_map.1 hmem
    exact List.mem_singleton.1 hother ▸ hseq x hx
  sound x hx := by
    rcases List.mem_append.1 hx with hx | hx
    · exact h.sound x hx
    · exact List.mem_singleton.1 hx ▸ hsound

/-! ### The queue of a sound part -/

theorem State.QueueSound.shape {s : State} (hs : s.QueueSound) : QueueShape s.alarms := by
  obtain ⟨hlen, hlost, hfull, hdistinct, hsound, -⟩ := hs
  exact ⟨hlen, hlost, hfull, hdistinct, hsound⟩

theorem State.QueueSound.nextSeq_lt {s : State} (hs : s.QueueSound) : s.nextSeq < 256 := by
  obtain ⟨-, -, -, -, -, hnext, -⟩ := hs
  exact hnext

theorem State.QueueSound.alert {s : State} (hs : s.QueueSound) : s.alertPin = alertOf s.alarms := by
  obtain ⟨-, -, -, -, -, -, hpin, -⟩ := hs
  exact hpin

theorem State.QueueSound.stopped {s : State} (hs : s.QueueSound) (h : s.north.link = .hunt) :
    ∀ r ∈ s.alarms, r.resend = .stopped := by
  obtain ⟨-, -, -, -, -, -, -, hstopped⟩ := hs
  exact hstopped h

/-- A part whose ALERT# follows its records is sound by the laws of the records, of NEXT_SEQ and of HUNT. -/
theorem QueueShape.queueSound {t : State} (h : QueueShape t.alarms) (hnext : t.nextSeq < 256)
    (hpin : t.alertPin = alertOf t.alarms) (hstopped : t.north.link = .hunt → ∀ r ∈ t.alarms, r.resend = .stopped) :
    t.QueueSound :=
  ⟨h.length_le, h.lost_le, h.lost_of_full, h.distinct, h.sound, hnext, hpin, hstopped⟩

section
variable {s : State} (hs : s.QueueSound)
include hs

/-- A queue replaced by one that is sound. -/
theorem State.QueueSound.withAlarms {q : List AlarmRecord} (hq : QueueShape q)
    (hstopped : s.north.link = .hunt → ∀ r ∈ q, r.resend = .stopped) : (s.withAlarms q).QueueSound :=
  hq.queueSound hs.nextSeq_lt rfl hstopped

/-- Records leave by their SEQ, SUBJECT or KIND (R54). -/
theorem State.QueueSound.dropAlarms (leave : AlarmRecord → Bool) : (s.dropAlarms leave).QueueSound :=
  hs.withAlarms (hs.shape.sublist List.filter_sublist) fun hl r hr => hs.stopped hl r (List.mem_filter.1 hr).1

/-- Records are changed with SEQ and KIND kept; a stopped timer stays stopped. -/
theorem State.QueueSound.mapAlarms {f : AlarmRecord → AlarmRecord} (hsame : ∀ r, (f r).seq = r.seq ∧ (f r).kind = r.kind)
    (hsound : ∀ r ∈ s.alarms, r.Sound → (f r).Sound) (hstopped : ∀ r, r.resend = .stopped → (f r).resend = .stopped) :
    (s.withAlarms (s.alarms.map f)).QueueSound := by
  refine hs.withAlarms (hs.shape.map hsame hsound) fun hl r hr => ?_
  obtain ⟨o, ho, rfl⟩ := List.mem_map.1 hr
  exact hstopped o (hs.stopped hl o ho)

/-! ### Admission (R56 to R59) -/

/-- A record is appended under a free SEQ: below 31 records, or as the LOST record that was missing. -/
theorem State.QueueSound.appendAlarm {a : Alarm} (hlen : s.alarms.length ≤ 31)
    (hordinary : a.kind ≠ .lost → s.alarms.length < 31) (hlost : a.kind = .lost → ∀ r ∈ s.alarms, r.kind ≠ .lost)
    (hsubject : a.kind = .lost ↔ a.subject = .noSubject) : (s.appendAlarm a).QueueSound := by
  obtain ⟨⟨j, -, hseq, -⟩, hfree⟩ := State.takeSeq_spec hlen hs.nextSeq_lt
  have bounded : s.takeSeq < 256 := hseq ▸ Nat.mod_lt _ (by decide)
  have fresh : (AlarmRecord.fresh s.takeSeq a).Sound := ⟨bounded, Nat.zero_le _, fun _ => rfl, hsubject⟩
  refine (hs.shape.append hlen hordinary hlost hfree fresh).queueSound (Nat.mod_lt _ (by decide)) rfl fun hl r hr => ?_
  rcases List.mem_append.1 hr with hr | hr
  · exact hs.stopped hl r hr
  · exact List.mem_singleton.1 hr ▸ rfl

/-- The LOST record that counts one more alarm is NEW again if it was SENT (R58). -/
theorem State.QueueSound.countLost (alert : Bool) :
    (s.withAlarms (s.alarms.map (fun r => if r.kind = .lost then r.countLost alert else r))).QueueSound := by
  have counted : ∀ r : AlarmRecord, (r.countLost alert).seq = r.seq ∧ (r.countLost alert).kind = r.kind
      ∧ (r.Sound → (r.countLost alert).Sound) ∧ (r.resend = .stopped → (r.countLost alert).resend = .stopped) := by
    intro r
    unfold AlarmRecord.countLost
    split
    · exact ⟨rfl, rfl, fun ⟨hseq, _, _, hlost⟩ => ⟨hseq, Nat.zero_le _, fun _ => rfl, hlost⟩, fun _ => rfl⟩
    · exact ⟨rfl, rfl, id, id⟩
  refine hs.mapAlarms (fun r => ?_) (fun r _ hr => ?_) (fun r hr => ?_) <;> obtain ⟨hseq, hkind, hsound, hstop⟩ := counted r
  · split
    · exact ⟨hseq, hkind⟩
    · exact ⟨rfl, rfl⟩
  · split
    · exact hsound hr
    · exact hr
  · split
    · exact hstop hr
    · exact hr

/-- Admission keeps the laws: an alarm is coalesced in place, appended below 31 records, or counted in the one LOST record. -/
theorem State.QueueSound.takeAlarm {a : Alarm} (hkind : a.kind ≠ .lost) (hsubject : a.subject ≠ .noSubject) :
    (s.takeAlarm a).1.QueueSound := by
  rcases s.takeAlarm_cases a with
    ⟨older, r, younger, hq, -, -, -, h⟩ | ⟨hlen, h⟩ | ⟨-, -, h⟩ | ⟨hlen, hnone, h⟩ <;> rw [h]
  · exact hs.withAlarms ((hq ▸ hs.shape).replace rfl rfl id) fun hl =>
      forall_mem_replace (r := r) (fun x hx => hs.stopped hl x (hq ▸ hx)) id
  · exact hs.appendAlarm (by omega) (fun _ => hlen) (fun hl => absurd hl hkind) (iff_of_false hkind hsubject)
  · exact hs.countLost a.alert
  · have notFull : s.alarms.length ≠ 32 := fun hfull => by
      obtain ⟨r, hr, hlost⟩ := hs.shape.lost_of_full hfull
      exact hnone r hr hlost
    have := hs.shape.length_le
    exact hs.appendAlarm (by omega) (fun hl => absurd rfl hl) (fun _ => hnone) (iff_of_true rfl rfl)

theorem State.QueueSound.raise {a : Alarm} (hkind : a.kind ≠ .lost) (hsubject : a.subject ≠ .noSubject) :
    (s.raise a).QueueSound := hs.takeAlarm hkind hsubject

/-- An alarm of an entry has the entry as its SUBJECT (R55). -/
theorem State.QueueSound.raiseChannel (n : Fin Config.channelCount) {kind : AlarmKind} (hkind : kind ≠ .lost) (v : Int) :
    (s.raise (s.channelAlarm n kind v)).QueueSound := hs.raise hkind nofun

/-! ### The Classifier -/

/-- A change of an entry is none of the queue. -/
theorem State.QueueSound.updateChannel (n : Fin Config.channelCount) (f : Channel → Channel) :
    (s.updateChannel n f).QueueSound := hs

theorem State.QueueSound.updateDyn (n : Fin Config.channelCount) (f : ChannelDynamic → ChannelDynamic) :
    (s.updateDyn n f).QueueSound := hs

/-- The loops hear of a sample, the queue does not. -/
theorem State.QueueSound.sourceSampleEvent (n : Fin Config.channelCount) : (s.sourceSampleEvent n).QueueSound := hs

theorem State.QueueSound.handNorth (c : Cell) : (s.handNorth c).QueueSound := by
  rw [s.handNorth_frame c]
  exact hs

theorem State.QueueSound.handSouth (c : Cell) : (s.handSouth c).QueueSound := by
  rw [s.handSouth_frame c]
  exact hs

theorem State.QueueSound.trip (n : Fin Config.channelCount) (side : Side) (v : Int) :
    (s.trip n side.tripped side.kind v).QueueSound := by
  have ordinary : side.kind ≠ .lost := by cases side <;> decide
  exact ((hs.updateDyn n _).takeAlarm ordinary (by simp [State.channelAlarm])).updateDyn n _

theorem State.QueueSound.returnToNormal (n : Fin Config.channelCount) (v : Int) : (s.returnToNormal n v).QueueSound :=
  (hs.updateDyn n _).raiseChannel n (by decide) v

theorem State.QueueSound.evalSample (n : Fin Config.channelCount) (v : Int) : (s.evalSample n v).QueueSound := by
  obtain ⟨b, hb, h⟩ := s.evalSample_cases n v
  have resumed : b.QueueSound := by
    rcases hb with ⟨-, rfl⟩ | ⟨-, rfl⟩
    · exact hs
    · exact hs.raiseChannel n (by decide) v
  rcases h with ⟨f, h, -⟩ | ⟨side, h⟩ | ⟨b', hb', h⟩ <;> rw [h]
  · exact resumed.updateDyn n f
  · exact resumed.trip n side v
  · rcases hb' with rfl | ⟨run, rfl⟩
    · exact resumed.returnToNormal n v
    · exact (resumed.updateDyn n _).returnToNormal n v

theorem State.QueueSound.forward (n : Fin Config.channelCount) (prior : ChannelState) (v : Int) (c : Cell) :
    (s.forward n prior v c).QueueSound := by
  obtain ⟨d, fifo, lost, -, h⟩ := s.forwarded_forward n prior v c
  rw [h]
  exact hs

theorem State.QueueSound.takeHit (n : Fin Config.channelCount) (c : Cell) : (s.takeHit n c).QueueSound := by
  unfold State.takeHit State.evaluate
  exact ((((hs.updateDyn n _).evalSample n _).sourceSampleEvent n).updateChannel n Channel.restartDeadline).forward n _ _ c

theorem State.QueueSound.takeMiss (c : Cell) : (s.takeMiss c).QueueSound := by
  obtain ⟨fifo, lost, h⟩ := s.takeMiss_spec c
  rw [h]
  exact hs

theorem State.QueueSound.deadlineExpires (n : Fin Config.channelCount) : (s.deadlineExpires n).QueueSound := by
  unfold State.deadlineExpires
  dsimp only
  split
  · exact hs
  · exact ((hs.updateChannel n _).updateDyn n _).raiseChannel n (by decide) _

/-! ### The receivers -/

/-- A receiver changes, but the north port does not come to HUNT. -/
theorem State.QueueSound.withReceiver (p : Port) {r : Receiver} (hr : r.link = .hunt → (s.receiver p).link = .hunt) :
    (s.withReceiver p r).QueueSound := by
  cases p with
  | north =>
    exact QueueShape.queueSound (t := { s with north := r }) hs.shape hs.nextSeq_lt hs.alert fun hl => hs.stopped (hr hl)
  | south => exact hs

/-- At the north port's return every SENT record is NEW again, its timer stopped (R66). -/
theorem State.QueueSound.portReturns (p : Port) : (s.portReturns p).QueueSound := by
  cases p with
  | north =>
    refine hs.mapAlarms (fun r => ?_) (fun r _ hr => ?_) (fun r hr => ?_) <;> unfold AlarmRecord.linkBack
    · split <;> exact ⟨rfl, rfl⟩
    · split
      · obtain ⟨hseq, hattempts, -, hlost⟩ := hr
        exact ⟨hseq, hattempts, fun _ => rfl, hlost⟩
      · exact hr
    · split
      · rfl
      · exact hr
  | south => exact hs

/-- A LINK alarm has the port as its SUBJECT (R111). -/
theorem State.QueueSound.raiseLink (p : Port) (link : LinkState) : (s.raise (s.linkAlarm p link)).QueueSound :=
  hs.raise nofun nofun

theorem State.QueueSound.enterSync (p : Port) : (s.enterSync p).QueueSound := by
  have inSync : (s.withReceiver p ((s.receiver p).enter .sync)).QueueSound := hs.withReceiver p fun hl => nomatch hl
  exact (inSync.portReturns p).raiseLink p .sync

/-- At the north port's loss every resend timer is stopped, whatever its receiver has counted (R65). -/
theorem State.QueueSound.enterHunt (p : Port) (r : Receiver) : ((s.withReceiver p r).enterHunt p).QueueSound := by
  refine State.QueueSound.raiseLink ?_ p .hunt
  cases p with
  | north =>
    have shape : QueueShape (s.alarms.map AlarmRecord.linkLost) :=
      hs.shape.map (fun _ => ⟨rfl, rfl⟩) fun _ _ ⟨hseq, hattempts, _, hlost⟩ => ⟨hseq, hattempts, fun _ => rfl, hlost⟩
    refine QueueShape.queueSound shape hs.nextSeq_lt rfl fun _ r hr => ?_
    obtain ⟨o, -, rfl⟩ := List.mem_map.1 hr
    rfl
  | south => exact hs

theorem State.QueueSound.dispatch (p : Port) (c : Cell) : (s.dispatch p c).QueueSound := by
  rcases s.dispatch_cases p c with
    h | ⟨-, -, h⟩ | ⟨d, -, -, h⟩ | ⟨d, -, h⟩ | ⟨-, -, h⟩ | ⟨-, h⟩ | ⟨k, -, -, h⟩ <;> rw [h]
  · exact hs
  · rcases s.classify_cases c with ⟨-, h⟩ | ⟨n, -, -, -, h⟩ | ⟨-, -, h⟩ <;> rw [h]
    · exact hs.handNorth c
    · exact hs.takeHit n c
    · exact hs.takeMiss c
  · exact hs.handNorth d
  · exact hs.handSouth d
  all_goals exact hs

theorem State.QueueSound.takeArrival (p : Port) (a : Arrival) : (s.takeArrival p a).QueueSound := by
  rcases s.takeArrival_cases p a with ⟨r, h, hlink, -⟩ | ⟨r, h, hlink, -⟩ | ⟨r, h, -⟩ | ⟨c, -, -, -, h⟩ <;> rw [h]
  · exact hs.withReceiver p fun hl => hlink ▸ hl
  · exact (hs.withReceiver p fun _ => hlink).enterSync p
  · exact hs.enterHunt p r
  · have taken : (s.goodTaken p).QueueSound := hs.withReceiver p id
    exact taken.dispatch p c

/-! ### Slots and the resend timer (R60 to R65) -/

/-- An announcement is made in SYNC: the record becomes SENT and its resend timer runs (R62). -/
theorem State.QueueSound.announce (hlink : s.north.link = .sync) {resend : Nat} {q : List AlarmRecord} {sent : AlarmRecord}
    (h : announce resend s.alarms = some (sent, q)) : (s.withAlarms q).QueueSound := by
  obtain ⟨older, r, younger, hq, rfl, -, -⟩ := announce_eq_some h
  have shape := hs.shape
  rw [hq] at shape
  refine hs.withAlarms (shape.replace rfl rfl fun hr => ?_) fun hl => ?_
  · obtain ⟨hseq, -, -, hlost⟩ := hr
    exact ⟨hseq, Nat.min_le_right .., nofun, hlost⟩
  · rw [hlink] at hl
    cases hl

theorem State.QueueSound.sendForwarded : s.sendForwarded.QueueSound := by
  unfold State.sendForwarded
  split <;> exact hs

theorem State.QueueSound.fillNorthSlot : s.fillNorthSlot.QueueSound := by
  unfold State.fillNorthSlot
  split
  · exact hs
  · next hlink =>
    split
    · exact hs.sendForwarded
    · unfold State.sendInserted
      split
      · exact hs
      · split
        · next h => exact hs.announce hlink h
        · exact hs.sendForwarded

theorem State.QueueSound.fillSouthSlot : s.fillSouthSlot.QueueSound := by
  unfold State.fillSouthSlot
  split
  · exact hs
  · split
    · unfold State.contended
      split <;> exact hs
    all_goals exact hs

/-- The record that becomes DUE is the one record of its SEQ; its timer ran, so it is SENT (R54, R63). -/
theorem State.QueueSound.makeDue {r : AlarmRecord} (hlink : s.north.link = .sync) (hr : r ∈ s.alarms)
    (hrun : r.resend = .running 0) : (s.makeDue r.seq).QueueSound := by
  have due : ∀ x ∈ s.alarms, x.seq = r.seq → x.Sound → ({ x with resend := .due } : AlarmRecord).Sound := by
    rintro x hx hseq ⟨hlt, hattempts, hnew, hlost⟩
    refine ⟨hlt, hattempts, fun hphase => ?_, hlost⟩
    have same : x = r := List.inj_on_of_nodup_map hs.shape.distinct hx hr hseq
    have stopped := hnew hphase
    rw [same, hrun] at stopped
    cases stopped
  refine hs.withAlarms (hs.shape.map (fun x => ?_) fun x hx hsound => ?_) fun hl => ?_
  · split <;> exact ⟨rfl, rfl⟩
  · split
    · next hseq => exact due x hx hseq hsound
    · exact hsound
  · rw [hlink] at hl
    cases hl

theorem State.QueueSound.resendExpires (seq : Nat) : (s.resendExpires seq).QueueSound := by
  unfold State.resendExpires
  split
  · next r hlink hfound =>
    have hfirst := List.find?_some hfound
    simp only [Bool.and_eq_true, beq_iff_eq, AlarmRecord.resendReached_iff] at hfirst
    obtain ⟨rfl, hrun⟩ := hfirst
    split
    · exact hs.dropAlarms _
    · exact hs.makeDue hlink (List.mem_of_find?_eq_some hfound) hrun
  · exact hs
  · exact hs

/-! ### The loops -/

theorem State.QueueSound.takeStep (k : Fin Config.loopCount) : (s.takeStep k).QueueSound := by
  unfold State.takeStep
  dsimp only
  split
  · exact hs
  · exact hs
  · unfold State.stepLoop
    dsimp only
    split
    · exact State.QueueSound.raise (s := s.updateLoop k _) hs nofun nofun
    · exact hs

/-! ### Acknowledgement, installs and REMOVE -/

theorem State.QueueSound.acknowledge (n : Fin Config.channelCount) : (s.acknowledge n).QueueSound := by
  unfold State.acknowledge
  dsimp only
  split
  · exact (hs.updateDyn n _).returnToNormal n _
  · exact hs

theorem State.QueueSound.removeTripRecord (n : Fin Config.channelCount) : (s.removeTripRecord n).QueueSound := by
  unfold State.removeTripRecord
  split
  · exact hs.dropAlarms _
  · exact hs

theorem State.QueueSound.ackSeq (v : Int) : (s.ackSeq v).state.QueueSound := by
  unfold State.ackSeq
  split
  · exact hs
  · dsimp only
    split
    · exact State.QueueSound.acknowledge (hs.dropAlarms _) _
    · exact hs.dropAlarms _

theorem State.QueueSound.ackEntry (n : Fin Config.channelCount) : (s.ackEntry n).state.QueueSound := by
  unfold State.ackEntry
  split
  · exact (hs.removeTripRecord n).acknowledge n
  · exact (hs.removeTripRecord n).acknowledge n
  all_goals exact hs

theorem State.QueueSound.ack (r : Request) : (s.ack r).state.QueueSound := by
  unfold State.ack
  split
  · exact hs.ackSeq _
  · split
    · exact hs.ackEntry _
    · exact hs
  all_goals exact hs

theorem State.QueueSound.installChannel (n : Fin Config.channelCount) (cfg : ChannelConfig) :
    (s.installChannel n cfg).QueueSound := by
  unfold State.installChannel
  dsimp only
  split
  · exact hs
  · exact State.QueueSound.dropAlarms (s := State.updateChannel _ n (Channel.freshInstall s.settings.mode cfg)) hs _

theorem State.QueueSound.installLoop (k : Fin Config.loopCount) (cfg : LoopConfig) : (s.installLoop k cfg).QueueSound := by
  unfold State.installLoop
  split
  · exact State.QueueSound.dropAlarms (s := s.updateLoop k _) hs _
  · split
    · exact State.QueueSound.dropAlarms (s := s.updateLoop k _) hs _
    · exact hs

theorem State.QueueSound.removeRule (r : Request) : (s.removeRule r).state.QueueSound := by
  unfold State.removeRule
  split
  · split
    · next n _ =>
      unfold State.removeEntry
      split
      · exact hs
      · exact State.QueueSound.dropAlarms (s := s.updateChannel n _) hs _
    · exact hs
  · split
    · next k _ => exact State.QueueSound.dropAlarms (s := s.updateLoop k _) hs _
    · exact hs
  all_goals exact hs

/-! ### The takings of the Agent -/

theorem State.QueueSound.resolveProposal : s.resolveProposal.QueueSound := by
  unfold State.resolveProposal
  split <;> exact hs

theorem State.QueueSound.complete (c : Cell) (reply : Reply) : (s.complete c reply).QueueSound := by
  rw [State.complete_eq]
  exact hs

theorem State.QueueSound.openPhase1Rule (r : Request) : (s.openPhase1Rule r).state.QueueSound := by
  unfold State.openPhase1Rule
  split
  · split <;> exact hs
  · exact hs

theorem State.QueueSound.takePhase2 (c : Cell) (r : Request) : (s.takePhase2 c r).QueueSound := by
  unfold State.takePhase2
  split
  · exact State.QueueSound.complete (s := s.openSession) hs c _
  · exact hs.resolveProposal.complete c _

theorem State.QueueSound.takeClose (c : Cell) (r : Request) : (s.takeClose c r).QueueSound := by
  unfold State.takeClose
  split
  · exact State.QueueSound.complete (s := s.closeSession) hs c _
  · exact State.QueueSound.complete (s := s.dropProposal) hs c _
  · exact hs.complete c _

theorem State.QueueSound.editLoadRule (r : Request) : (s.editLoadRule r).state.QueueSound := by
  unfold State.editLoadRule
  split
  · split <;> exact hs
  · split <;> exact hs
  all_goals exact hs

theorem State.QueueSound.editWritten {α : Type} (v : Int) (load : α → EditBuffer) (w : FieldWrite α) :
    (s.editWritten v load w).state.QueueSound := by
  cases w <;> exact hs

theorem State.QueueSound.editSetRule (r : Request) : (s.editSetRule r).state.QueueSound := by
  unfold State.editSetRule
  split
  · exact hs.editWritten ..
  · exact hs.editWritten ..
  all_goals exact hs

theorem State.QueueSound.takeCommit (c : Cell) (r : Request) : (s.takeCommit c r).QueueSound := by
  have resolved := hs.resolveProposal
  unfold State.takeCommit
  dsimp only
  split
  · exact resolved.complete c _
  · split
    · exact resolved.complete c _
    · exact resolved

theorem State.QueueSound.endScan (c : Cell) : (s.endScan c).QueueSound := by
  have ended : ∀ (t : State) reply, t.QueueSound → (({ t with agent := .idle } : State).complete c reply).QueueSound :=
    fun t reply ht => State.QueueSound.complete (s := { t with agent := .idle }) ht c reply
  unfold State.endScan
  split
  · exact ended s _ hs
  · refine ended _ _ ?_
    unfold State.judge
    split
    · split
      · exact hs
      · exact hs.installChannel _ _
    · split
      · exact hs
      · exact hs.installLoop _ _

theorem State.QueueSound.setPartRule (r : Request) : (s.setPartRule r).state.QueueSound := by
  unfold State.setPartRule
  split
  · split
    · exact hs
    · exact hs
    · exact hs
    · next p _ =>
      obtain ⟨f, g, -, -, h⟩ := s.withSettings_spec p
      dsimp only
      rw [h]
      exact hs
  all_goals exact hs

theorem State.QueueSound.manualRule (r : Request) : (s.manualRule r).state.QueueSound := by
  unfold State.manualRule
  split
  · split
    · split
      · unfold State.manualLoop
        split
        · exact hs
        all_goals split <;> exact hs
      · exact hs
    · exact hs
  all_goals exact hs

theorem State.QueueSound.clearRule (r : Request) : (s.clearRule r).state.QueueSound := by
  unfold State.clearRule
  split <;> exact hs

theorem State.QueueSound.takeRequest {row : RequestRow} {execute : State → Cell → Request → State}
    (h : ∀ b c r, b.QueueSound → (execute b c r).QueueSound) : (s.takeRequest row execute).QueueSound := by
  rcases s.takeRequest_cases row execute with ht | ⟨c, rest, -, -, -, -, ht⟩ <;> rw [ht]
  · exact hs
  · exact h _ c _ hs

theorem State.QueueSound.takeAndServe {row : RequestRow} {g : Gates} {rule : State → Request → Answer}
    (h : ∀ b r, b.QueueSound → (rule b r).state.QueueSound) : (s.takeAndServe row g rule).QueueSound := by
  refine hs.takeRequest fun b c r hb => ?_
  have resolved := hb.resolveProposal
  unfold State.serve
  dsimp only
  split
  · exact resolved.complete c _
  · exact (h _ r resolved).complete c _

end

/-! ### Resets -/

/-- An empty queue, with ALERT# deasserted and NEXT_SEQ 0 (R74). -/
theorem State.queueSound_of_empty {t : State} (hempty : t.alarms = []) (hnext : t.nextSeq = 0) (hpin : t.alertPin = false) :
    t.QueueSound :=
  QueueShape.queueSound (hempty ▸ .nil) (by omega) (by rw [hpin, hempty]; rfl) fun _ r hr => by simp [hempty] at hr

theorem State.queueSound_coldCondition (s : State) : s.coldCondition.QueueSound :=
  State.queueSound_of_empty rfl rfl rfl

theorem State.queueSound_warmReset (s : State) : s.warmReset.QueueSound :=
  State.queueSound_of_empty rfl rfl rfl

theorem queueSound_coldReset {edge : ColdEdge} {s t : State} (hs : s.QueueSound) (h : execColdReset edge s = .next t) :
    t.QueueSound := by
  have cold := s.queueSound_coldCondition
  unfold execColdReset at h
  cases edge with
  | resetFalls | powerUpBegins =>
    cases h
    exact cold
  | resetRises | powerUpEnds =>
    cases h
    split
    · exact cold
    · exact hs

theorem queueSound_restartEdge {edge : RestartEdge} {s t : State} (hs : s.QueueSound)
    (h : execWarmReset edge s = .next t) : t.QueueSound := by
  have warm := ({ s with restartLow := true } : State).queueSound_warmReset
  unfold execWarmReset at h
  cases edge with
  | rises =>
    cases h
    exact hs
  | falls heldLowNs =>
    cases h
    split
    · exact hs
    · split
      · exact hs
      · unfold State.restartFalls
        dsimp only
        split
        · exact warm
        · split
          · exact warm
          · exact hs

/-! ### Every command and every step -/

section
variable {s t : State} {effect : State → State} (hs : s.QueueSound)
include hs

theorem State.QueueSound.happening (h : happening s effect = .next t) (he : (effect s).QueueSound) : t.QueueSound := by
  rcases happening_cases h with ⟨-, rfl⟩ | ⟨-, rfl⟩
  · exact hs
  · exact he

theorem State.QueueSound.expiry {due : State → Bool} (h : expiry s due effect = .next t) (he : (effect s).QueueSound) :
    t.QueueSound := by
  rcases expiry_cases h with rfl | ⟨-, rfl⟩
  · exact hs
  · exact he

/-- Every command keeps the laws of the queue. -/
theorem State.QueueSound.exec {i : Instr} (h : exec i s = .next t) : t.QueueSound := by
  unfold Machine.exec at h
  cases i with
  | coldReset edge => exact queueSound_coldReset hs h
  | warmReset edge => exact queueSound_restartEdge hs h
  | arrival p a => exact hs.happening h (hs.takeArrival p a)
  | northSlot => exact hs.happening h hs.fillNorthSlot
  | southSlot => exact hs.happening h hs.fillSouthSlot
  | deadlineExpiry n => exact hs.expiry h (hs.deadlineExpires n)
  | forwardRefreshExpiry n => exact hs.expiry h (hs.updateDyn n _)
  | resendTimerExpiry seq => exact hs.happening h (hs.resendExpires seq)
  | step k => exact hs.expiry h (hs.takeStep k)
  | stopTimerExpiry | refreshTimerExpiry | proposalTimerExpiry | sessionTimerExpiry => exact hs.expiry h hs
  | read | unknownRequest | freeze => exact hs.happening h (hs.takeAndServe fun _ _ hb => hb)
  | openPhase1 => exact hs.happening h (hs.takeAndServe fun _ r hb => hb.openPhase1Rule r)
  | openPhase2 => exact hs.happening h (hs.takeRequest fun _ c r hb => hb.takePhase2 c r)
  | close => exact hs.happening h (hs.takeRequest fun _ c r hb => hb.takeClose c r)
  | editLoad => exact hs.happening h (hs.takeAndServe fun _ r hb => hb.editLoadRule r)
  | editSet => exact hs.happening h (hs.takeAndServe fun _ r hb => hb.editSetRule r)
  | commit => exact hs.happening h (hs.takeRequest fun _ c r hb => hb.takeCommit c r)
  | endOfScan =>
    refine hs.happening h ?_
    split
    · exact hs.endScan _
    · exact hs
  | removeChannel | removeLoop => exact hs.happening h (hs.takeAndServe fun _ r hb => hb.removeRule r)
  | setPart => exact hs.happening h (hs.takeAndServe fun _ r hb => hb.setPartRule r)
  | ackAlarm | ackChannel => exact hs.happening h (hs.takeAndServe fun _ r hb => hb.ack r)
  | manual | manualRelease => exact hs.happening h (hs.takeAndServe fun _ r hb => hb.manualRule r)
  | clearMiss | clearPart => exact hs.happening h (hs.takeAndServe fun _ r hb => hb.clearRule r)
  | restart => exact hs.happening h (hs.takeAndServe fun b _ _ => b.queueSound_warmReset)

end

/-- A boundary counts the resend timers that run; a stopped one stays stopped (R177). -/
theorem State.QueueSound.countBoundary {s : State} (hs : s.QueueSound) : s.countBoundary.QueueSound := by
  have counted : (s.withAlarms (s.alarms.map AlarmRecord.count)).QueueSound := by
    refine hs.mapAlarms (fun r => ?_) (fun r _ hr => ?_) (fun r hr => ?_) <;> unfold AlarmRecord.count
    · split <;> exact ⟨rfl, rfl⟩
    · split
      · next hrun =>
        obtain ⟨hseq, hattempts, hnew, hlost⟩ := hr
        refine ⟨hseq, hattempts, fun hphase => ?_, hlost⟩
        have stopped := hnew hphase
        rw [hrun] at stopped
        cases stopped
      all_goals exact hr
    · simp [hr]
  exact counted

theorem State.QueueSound.idle {s : State} (hs : s.QueueSound) : s.idle.QueueSound := by
  unfold State.idle
  split
  · exact hs
  · split
    · exact hs
    · exact hs.countBoundary

/-- Settles O51: each operation on the queue keeps the laws of its records, and the queue is touched by these operations only;
a north receiver that leaves SYNC stops every resend timer. -/
theorem stepKeepsQueueSound : Obligations.StepKeepsQueueSound := by
  intro s t hs h
  unfold step at h
  split at h
  · next i rest _ =>
    have before : ({ s with pending := rest } : State).QueueSound := hs
    exact before.exec h
  · cases h
    exact hs.idle

end Sys2Proof.Machine

/-! ## O24: the resend timer -/

namespace Sys2Proof.Machine

section
variable {s : State} {older younger : List AlarmRecord} {r : AlarmRecord}

/-- The expiry of a SEQ finds its record when the timer stands at its count: no other record has the SEQ (R54). -/
theorem State.expiringRecord_of_nodup (hq : s.alarms = older ++ r :: younger) (h : (s.alarms.map (fun x => x.seq)).Nodup)
    (hrun : r.resend = .running 0) : s.expiringRecord r.seq = some r := by
  rw [hq] at h
  have before : older.find? (fun x => x.seq == r.seq && x.resendReached) = none :=
    List.find?_eq_none.2 fun x hx => by simp [seq_ne_of_nodup h x (List.mem_append_left _ hx)]
  have here : (r.seq == r.seq && r.resendReached) = true := by simp [hrun]
  rw [State.expiringRecord, hq, List.find?_append, before, Option.none_or]
  exact List.find?_cons_of_pos here

/-- No record of a SEQ whose timer stands at its count, no expiry (log 3). -/
theorem State.expiringRecord_eq_none {seq : Nat} (h : ∀ r ∈ s.alarms, r.seq = seq → r.resend ≠ .running 0) :
    s.expiringRecord seq = none :=
  List.find?_eq_none.2 fun r hr => by simpa using h r hr

/-- An expiry changes nothing in HUNT, and nothing where no timer of the SEQ stands at its count (R65, log 3, 18). -/
theorem State.resendExpires_of_none {seq : Nat} (h : s.north.link = .hunt ∨ s.expiringRecord seq = none) :
    s.resendExpires seq = s := by
  unfold State.resendExpires
  split
  · next hl hr => simp [hl, hr] at h
  · rfl
  · rfl

/-- An expiry in SYNC abandons the record it finds, or makes it DUE (R63). -/
theorem State.resendExpires_of_some (hl : s.north.link = .sync) {seq : Nat} (hr : s.expiringRecord seq = some r) :
    s.resendExpires seq = if abandons s.settings.retry r.attempts then s.abandon seq else s.makeDue seq := by
  simp only [State.resendExpires, hl, hr]

theorem abandons_iff (retry attempts : Nat) : abandons retry attempts = true ↔ 1 ≤ retry ∧ retry ≤ attempts := by
  simp [abandons, Nat.one_le_iff_ne_zero, Nat.pos_iff_ne_zero]

/-- The record of a SEQ made DUE in its place: no other record has the SEQ, and ALERT# stands (R63, R72). -/
theorem State.makeDue_of_nodup (hq : s.alarms = older ++ r :: younger) (h : (s.alarms.map (fun x => x.seq)).Nodup) :
    s.makeDue r.seq =
      { s with alarms := older ++ { r with resend := .due } :: younger, alertPin := alertOf s.alarms } := by
  rw [hq] at h
  have due : s.alarms.map (fun x => if x.seq = r.seq then { x with resend := .due } else x)
      = older ++ { r with resend := .due } :: younger := by
    rw [hq]
    exact map_ite_of_unique (fun x => { x with resend := .due }) rfl (seq_ne_of_nodup h)
  rw [State.makeDue, due, State.withAlarms, hq]
  simp

/-- Abandonment: the record leaves, ABANDONED grows, and the entries forget the SEQ (R44, R63). -/
theorem State.abandon_of_nodup (hq : s.alarms = older ++ r :: younger) (h : (s.alarms.map (fun x => x.seq)).Nodup) :
    s.abandon r.seq =
      { s with alarms := older ++ younger, alertPin := alertOf (older ++ younger), abandoned := min (s.abandoned + 1) 65535
               channels := mapTable (Channel.forgetTrip r.seq) s.channels } := by
  rw [State.abandon, State.removeRecord_of_nodup hq h]
  rfl

end

/-- Settles O24: the expiry finds the one record of its SEQ whose timer stands at its count, and RETRY decides what becomes of
it; where it finds none, and in HUNT, nothing happens. -/
theorem resendExpiryAbandonsOrMakesDue : Obligations.ResendExpiryAbandonsOrMakesDue := by
  intro s seq hcold hdistinct
  have ran : exec (.resendTimerExpiry seq) s = .next (s.resendExpires seq) :=
    happening_of_running hcold (fun s => s.resendExpires seq)
  rw [ran]
  refine ⟨fun older r younger hlink hq hseq hrun => ?_, fun hnone => ?_⟩
  · subst hseq
    rw [State.resendExpires_of_some hlink (State.expiringRecord_of_nodup hq hdistinct hrun)]
    refine ⟨fun hretry hreached => ?_, fun hleft => ?_⟩
    · rw [if_pos ((abandons_iff _ _).2 ⟨hretry, hreached⟩), State.abandon_of_nodup hq hdistinct]
      exact ⟨_, rfl, rfl, fun n => mapTable_fin _ _ n⟩
    · have spared : ¬abandons s.settings.retry r.attempts = true := by rw [abandons_iff]; omega
      rw [if_neg spared, State.makeDue_of_nodup hq hdistinct]
  · rw [State.resendExpires_of_none (hnone.imp_right State.expiringRecord_eq_none)]

end Sys2Proof.Machine

/-! ## O23: the north slot -/

namespace Sys2Proof.Machine

/-! ### The Announcer (R60, R62) -/

@[simp] theorem AlarmRecord.isNew_iff (r : AlarmRecord) : r.isNew = true ↔ r.phase = .new := by
  simp [AlarmRecord.isNew]

@[simp] theorem AlarmRecord.isDue_iff (r : AlarmRecord) : r.isDue = true ↔ r.phase = .sent ∧ r.resend = .due := by
  simp [AlarmRecord.isDue]

section
variable {older younger : List AlarmRecord} {r : AlarmRecord} (resend : Nat)

/-- The NEW record at the lowest position is offered first (R60). -/
theorem announce_of_new (hr : r.phase = .new) (ho : ∀ x ∈ older, x.phase ≠ .new) :
    announce resend (older ++ r :: younger) = some (r.announced resend, older ++ r.announced resend :: younger) := by
  have first := announceFirst_of_first (p := AlarmRecord.isNew) (resend := resend) (younger := younger)
    (fun x hx => Bool.eq_false_iff.2 (mt x.isNew_iff.1 (ho x hx))) (r.isNew_iff.2 hr)
  simp only [announce, first]

/-- With no NEW record the DUE one at the lowest position is offered (R60). -/
theorem announce_of_due (hr : r.phase = .sent ∧ r.resend = .due) (hnew : ∀ x ∈ older ++ r :: younger, x.phase ≠ .new)
    (ho : ∀ x ∈ older, x.resend ≠ .due) :
    announce resend (older ++ r :: younger) = some (r.announced resend, older ++ r.announced resend :: younger) := by
  have noNew := announceFirst_of_none (p := AlarmRecord.isNew) (resend := resend)
    (fun x hx => Bool.eq_false_iff.2 (mt x.isNew_iff.1 (hnew x hx)))
  have first := announceFirst_of_first (p := AlarmRecord.isDue) (resend := resend) (younger := younger)
    (fun x hx => Bool.eq_false_iff.2 fun hdue => ho x hx (x.isDue_iff.1 hdue).2) (r.isDue_iff.2 hr)
  simp only [announce, noNew, first]

/-- A SENT record whose timer is not DUE is not offered (R60). -/
theorem announce_of_none {q : List AlarmRecord} (h : ∀ r ∈ q, r.phase = .sent ∧ r.resend ≠ .due) :
    announce resend q = none := by
  have noNew := announceFirst_of_none (p := AlarmRecord.isNew) (resend := resend) (l := q)
    (fun x hx => by simp [AlarmRecord.isNew, (h x hx).1])
  have noDue := announceFirst_of_none (p := AlarmRecord.isDue) (resend := resend) (l := q)
    (fun x hx => by simp [AlarmRecord.isDue, (h x hx).2])
  simp only [announce, noNew, noDue]

end

/-! ### The slot (R123, R124) -/

section
variable {s : State}

theorem State.sendForwarded_of_cons {c : Cell} {rest : List Cell} (h : s.northFifo = c :: rest) :
    s.sendForwarded = { s with northFifo := rest, northSent := some c } := by
  simp only [State.sendForwarded, h]
  rfl

theorem State.sendForwarded_of_nil (h : s.northFifo = []) : s.sendForwarded = { s with northSent := some fillCell } := by
  unfold State.sendForwarded
  split
  · next hcons => exact nomatch h.symm.trans hcons
  · rfl

theorem State.sendInserted_of_response {c : Cell} {rest : List Cell} (h : s.responses = c :: rest) :
    s.sendInserted = { s with responses := rest, northSent := some c } := by
  simp only [State.sendInserted, h]
  rfl

/-- A record announced in its place leaves ALERT# as the records have it: an announcement keeps ALERT (R62, R72). -/
theorem State.sendInserted_of_alarm (h : s.responses = []) {older younger : List AlarmRecord} {r : AlarmRecord}
    (hq : s.alarms = older ++ r :: younger)
    (ha : announce s.settings.resend s.alarms
      = some (r.announced s.settings.resend, older ++ r.announced s.settings.resend :: younger)) :
    s.sendInserted =
      { s with alarms := older ++ r.announced s.settings.resend :: younger, alertPin := alertOf s.alarms
               northSent := some (alarmCell (r.announced s.settings.resend)) } := by
  have pin : alertOf (older ++ r.announced s.settings.resend :: younger) = alertOf s.alarms := by
    rw [hq]
    simp [AlarmRecord.announced]
  simp only [State.sendInserted, h, ha, State.withAlarms, pin]
  rfl

theorem State.sendInserted_of_none (h : s.responses = []) (ha : announce s.settings.resend s.alarms = none) :
    s.sendInserted = s.sendForwarded := by
  simp only [State.sendInserted, h, ha]

theorem State.fillNorthSlot_of_hunt (h : s.north.link = .hunt) : s.fillNorthSlot = { s with northSent := some fillCell } := by
  simp only [State.fillNorthSlot, h]
  rfl

theorem State.fillNorthSlot_of_highWater (h : s.north.link = .sync) (hfull : 24 ≤ s.northFifo.length) :
    s.fillNorthSlot = s.sendForwarded := by
  simp only [State.fillNorthSlot, h]
  exact if_pos hfull

theorem State.fillNorthSlot_of_below (h : s.north.link = .sync) (hbelow : s.northFifo.length < 24) :
    s.fillNorthSlot = s.sendInserted := by
  simp only [State.fillNorthSlot, h]
  exact if_neg (Nat.not_le.2 hbelow)

end

/-- Settles O23: the six cases of the slot in their order; the record offered is the first NEW one or else the first DUE one. -/
theorem northSlotSendsInOrder : Obligations.NorthSlotSendsInOrder := by
  intro s hcold
  have ran : exec .northSlot s = .next s.fillNorthSlot := happening_of_running hcold _
  rw [ran]
  refine ⟨fun hhunt => ?_, fun c rest hsync hfifo hfull => ?_, fun hsync hbelow => ?_⟩
  · rw [State.fillNorthSlot_of_hunt hhunt]
  · rw [State.fillNorthSlot_of_highWater hsync hfull, State.sendForwarded_of_cons hfifo]
  · rw [State.fillNorthSlot_of_below hsync hbelow]
    refine ⟨fun c rest hresponse => ?_, fun hempty => ⟨fun older r younger hq hoffered => ?_, fun hnone => ?_⟩⟩
    · rw [State.sendInserted_of_response hresponse]
    · have offered : announce s.settings.resend s.alarms
          = some (r.announced s.settings.resend, older ++ r.announced s.settings.resend :: younger) := by
        rcases hoffered with ⟨hr, ho⟩ | ⟨hsent, hdue, hnew, ho⟩
        · rw [hq, announce_of_new _ hr ho]
        · rw [hq, announce_of_due _ ⟨hsent, hdue⟩ (hq ▸ hnew) ho]
      rw [State.sendInserted_of_alarm hempty hq offered]
      rfl
    · rw [State.sendInserted_of_none hempty (announce_of_none _ hnone)]
      exact ⟨fun c rest hfifo => by rw [State.sendForwarded_of_cons hfifo],
        fun hfifo => by rw [State.sendForwarded_of_nil hfifo]⟩

end Sys2Proof.Machine

/-! ## O8: the cells the part makes -/

namespace Sys2Proof.Machine

/-! ### The fields of a made cell (R183) -/

section
variable (kind byte1 top op : Nat) (value : Int) (tag aux : Nat)

@[simp] theorem good_makeCell : (makeCell kind byte1 top op value tag aux).good = true := good_sealed _

@[simp] theorem hop_makeCell : (makeCell kind byte1 top op value tag aux).hop = 0 := by
  have byte : (makeCell kind byte1 top op value tag aux).b0.toNat = kind * 16 % 256 := BitVec.toNat_ofNat ..
  rw [Cell.hop, byte]
  omega

@[simp] theorem b1_makeCell : (makeCell kind byte1 top op value tag aux).b1 = BitVec.ofNat 8 byte1 := rfl

@[simp] theorem b5_makeCell : (makeCell kind byte1 top op value tag aux).b5 = BitVec.ofNat 8 tag := rfl

@[simp] theorem b6_makeCell : (makeCell kind byte1 top op value tag aux).b6 = BitVec.ofNat 8 aux := rfl

/-- VALUE is the number's 16 bits, read as two's complement. -/
theorem value_makeCell : (makeCell kind byte1 top op value tag aux).value = (BitVec.ofInt 16 value).toInt :=
  congrArg BitVec.toInt (valueHigh_append_valueLow value)

variable {kind byte1 top op : Nat}

theorem kind_makeCell (h : kind ≤ 15) : (makeCell kind byte1 top op value tag aux).kind = kind := by
  have byte : (makeCell kind byte1 top op value tag aux).b0.toNat = kind * 16 % 256 := BitVec.toNat_ofNat ..
  rw [Cell.kind, byte]
  omega

/-- POINT or SPACE, and OP, share byte 2. -/
theorem space_op_makeCell (htop : top ≤ 7) (hop : op ≤ 31) :
    (makeCell kind byte1 top op value tag aux).space = top ∧ (makeCell kind byte1 top op value tag aux).op = op := by
  have byte : (makeCell kind byte1 top op value tag aux).b2.toNat = (top * 32 + op) % 256 := BitVec.toNat_ofNat ..
  rw [Cell.space, Cell.op, byte]
  omega

/-- The key of a made COMMAND cell: NODE is byte 1, POINT the top of byte 2. -/
theorem key_makeCell (hnode : byte1 ≤ 63) (hpoint : top ≤ 7) (hop : op ≤ 31) :
    (makeCell kind byte1 top op value tag aux).key = ⟨byte1, top⟩ := by
  have node : (makeCell kind byte1 top op value tag aux).b1.toNat = byte1 % 256 := BitVec.toNat_ofNat ..
  have point : (makeCell kind byte1 top op value tag aux).b2.toNat = (top * 32 + op) % 256 := BitVec.toNat_ofNat ..
  rw [Cell.key, node, point]
  exact congrArg₂ Key.mk (by omega) (by omega)

end

/-- A number of a byte's range is what the byte holds. -/
theorem toNat_byte {n : Nat} (h : n ≤ 255) : (BitVec.ofNat 8 n).toNat = n := by
  rw [BitVec.toNat_ofNat]
  omega

/-- A byte is made again from its number. -/
theorem byte_toNat (b : Byte) : BitVec.ofNat 8 b.toNat = b := BitVec.ofNat_toNat ..

/-- A signed 16-bit value reads back; a count above 32767 has the same bits as the value 65536 below (R136). -/
theorem toInt_word {v : Int} (hlo : -32768 ≤ v) (hhi : v ≤ 65535) :
    (BitVec.ofInt 16 v).toInt = if v ≤ 32767 then v else v - 65536 := by
  rw [BitVec.toInt_ofInt, Int.bmod]
  split <;> split <;> omega

theorem toInt_inWord {v : Int} (h : InWord v) : (BitVec.ofInt 16 v).toInt = v := by
  rw [toInt_word h.1 (by omega), if_pos h.2]

/-! ### Responses, ALARM cells and loop COMMANDs -/

theorem Status.code_le (st : Status) : st.code ≤ 17 := by
  cases st <;> decide

theorem AlarmKind.code_le (kind : AlarmKind) : kind.code ≤ 8 := by
  cases kind <;> decide

theorem cellSpace_le (c : Cell) : c.space ≤ 7 := by
  have := c.b2.isLt
  unfold Cell.space
  omega

/-- The number of a SUBJECT, or 0 for the LOST record, fits byte 1 (R55). -/
theorem Subject.number_le (subject : Subject) : subject.number.getD 0 ≤ 255 := by
  cases subject with
  | channel n => exact (show (n : Nat) < 128 from n.isLt).le.trans (by decide)
  | loop k => exact (show (k : Nat) < 16 from k.isLt).le.trans (by decide)
  | port p => cases p <;> decide
  | noSubject => decide

theorem responseEchoesRequest : Clause.ResponseEchoesRequest := by
  intro c r
  have hcode := r.status.code_le
  unfold responseCell
  obtain ⟨hspace, hop⟩ := space_op_makeCell (kind := 4) (byte1 := c.b1.toNat) (r.value.getD c.value) c.b5.toNat
    (r.aux.getD c.b6.toNat) (cellSpace_le c) (show r.status.code ≤ 31 by omega)
  refine ⟨kind_makeCell _ _ _ (by omega), hop_makeCell .., byte_toNat c.b1, hspace, hop, byte_toNat c.b5, good_makeCell ..,
    fun hnone => ?_, fun v hv hlo hhi => ?_, fun hnone => ?_, fun a ha hle => ?_⟩
  · rw [value_makeCell, hnone]
    exact toInt_inWord (inWord_cellValue c)
  · rw [value_makeCell, hv]
    exact toInt_word hlo hhi
  · rw [b6_makeCell, hnone]
    exact byte_toNat c.b6
  · rw [b6_makeCell, ha]
    exact toNat_byte hle

theorem madeCellsCarryTheirFields : Clause.MadeCellsCarryTheirFields := by
  refine ⟨fun r hseq hattempts hlo hhi => ?_, fun k l hnode hpoint hdrive => ?_⟩
  · have hcode := r.kind.code_le
    unfold alarmCell
    obtain ⟨hspace, hop⟩ := space_op_makeCell (kind := 5) (byte1 := r.subject.number.getD 0) r.value r.seq r.attempts
      (Nat.zero_le 7) (show r.kind.code ≤ 31 by omega)
    exact ⟨kind_makeCell _ _ _ (by omega), hop_makeCell .., toNat_byte r.subject.number_le, hspace, hop,
      (value_makeCell ..).trans (toInt_inWord ⟨hlo, hhi⟩), toNat_byte hseq, toNat_byte (by omega), good_makeCell ..⟩
  · have hk : (k : Nat) < 16 := k.isLt
    unfold Loop.commandCell
    obtain ⟨-, hop⟩ := space_op_makeCell (kind := 2) (byte1 := l.cfg.actNode) l.drive (240 + k) 0 hpoint
      (show 1 ≤ 31 by omega)
    exact ⟨kind_makeCell _ _ _ (by omega), hop_makeCell .., toNat_byte (by omega),
      key_makeCell _ _ _ hnode hpoint (by omega), hop, (value_makeCell ..).trans (toInt_inWord ⟨by omega, by omega⟩),
      toNat_byte (by omega), rfl, good_makeCell ..⟩

/-- Only the CHECK of the FILL cell is not 0: the code of R104 over seven bytes of 0. -/
theorem fillCellIsZerosAndCheck : Clause.FillCellIsZerosAndCheck := by
  unfold Clause.FillCellIsZerosAndCheck
  decide +kernel

theorem codesAreTheTables : Clause.CodesAreTheTables := by
  unfold Clause.CodesAreTheTables
  decide

/-- Settles O8: the fields of a made cell read back from its bytes, the FILL cell is computed, and the codes are those of the
tables. -/
theorem partMadeCellsCarryTheirFields : Obligations.PartMadeCellsCarryTheirFields :=
  ⟨responseEchoesRequest, madeCellsCarryTheirFields, fillCellIsZerosAndCheck, codesAreTheTables⟩

end Sys2Proof.Machine

/-! ## O57, O58: the laws of the loops -/

namespace Sys2Proof.Machine

/-! ### Timers of a loop -/

@[simp] theorem startInActive_isSome (mode : Mode) (ticks : Nat) : (startInActive mode ticks).isSome = true ↔ mode = .active := by
  cases mode <;> simp [startInActive]

@[simp] theorem startUnlessZero_isSome (ticks : Nat) : (startUnlessZero ticks).isSome = true ↔ 0 < ticks := by
  unfold startUnlessZero; split <;> simp_all

/-! ### The laws of one loop -/

section
variable {mode mode' : Mode} {l l' : Loop}

theorem Loop.Sound.driveLaw (h : l.Sound mode) : l.DriveLaw := by
  obtain ⟨hdrive, -⟩ := h
  exact hdrive

theorem Loop.Sound.stepTimer_iff (h : l.Sound mode) : l.stepTimer.isSome ↔ l.state.automatic ∧ mode = .active := by
  obtain ⟨-, ⟨hstep, -⟩, -⟩ := h
  exact hstep

theorem Loop.Sound.stopTimer_iff (h : l.Sound mode) : l.stopTimer.isSome ↔ l.state = .stopWait ∧ mode = .active := by
  obtain ⟨-, ⟨-, hstop, -⟩, -⟩ := h
  exact hstop

theorem Loop.Sound.refreshTimer_iff (h : l.Sound mode) : l.refreshTimer.isSome ↔ l.state ≠ .disabled ∧ 0 < l.cfg.refresh := by
  obtain ⟨-, ⟨-, -, hrefresh⟩, -⟩ := h
  exact hrefresh

theorem Loop.Sound.enableLaw (h : l.Sound mode) : l.EnableLaw := by
  obtain ⟨-, -, henable, -⟩ := h
  exact henable

theorem Loop.Sound.no_satCount (h : l.Sound mode) (hstate : l.state ≠ .running) : l.satCount = 0 := by
  obtain ⟨-, -, -, hsat, -⟩ := h
  exact hsat hstate

theorem Loop.Sound.pending_off (h : l.Sound mode) (hstate : l.state = .disabled) : l.pending = false := by
  obtain ⟨-, -, -, -, hpending, -⟩ := h
  exact hpending hstate

theorem Loop.Sound.stopTime_pos (h : l.Sound mode) (hstate : l.state = .stopWait) : 0 < l.cfg.stopTime := by
  obtain ⟨-, -, -, -, -, hwait, -⟩ := h
  exact hwait hstate

theorem Loop.Sound.revision_lt (h : l.Sound mode) : l.revision < 256 := by
  obtain ⟨-, -, -, -, -, -, hrev, -⟩ := h
  exact hrev

theorem Loop.Sound.guard_le (h : l.Sound mode) : l.guardCount ≤ 255 := by
  obtain ⟨-, -, -, -, -, -, -, hguard⟩ := h
  exact hguard

/-- No step timer runs outside the automatic states (R81). -/
theorem Loop.Sound.no_stepTimer (h : l.Sound mode) (hstate : l.state.automatic = false) : l.stepTimer = none := by
  simpa [hstate] using h.stepTimer_iff

/-- No stop timer runs outside STOP_WAIT (R87). -/
theorem Loop.Sound.no_stopTimer (h : l.Sound mode) (hstate : l.state ≠ .stopWait) : l.stopTimer = none := by
  simpa [hstate] using h.stopTimer_iff

/-- What an install requires of the static part of an enabled loop (R168). -/
def LoopConfig.Enabled (cfg : LoopConfig) : Prop :=
  cfg.enable = true ∧ cfg.stopDuty ≤ cfg.startDuty ∧ cfg.startDuty ≤ cfg.maxDuty ∧ 1 ≤ cfg.actNode ∧ cfg.actNode ≤ 63

theorem Loop.Sound.enabled (h : l.Sound mode) (hlive : l.state ≠ .disabled) : l.cfg.Enabled := by
  obtain ⟨henable, hduties⟩ := h.enableLaw
  exact ⟨by simpa [hlive] using henable, hduties hlive⟩

/-- The duties of an enabled loop stand in order (R168). -/
theorem LoopConfig.Enabled.duties {cfg : LoopConfig} (h : cfg.Enabled) :
    cfg.stopDuty ≤ cfg.startDuty ∧ cfg.startDuty ≤ cfg.maxDuty := by
  obtain ⟨-, hstop, hstart, -⟩ := h
  exact ⟨hstop, hstart⟩

/-- The laws of a loop outside DISABLED, one by one. -/
theorem Loop.sound_of_enabled (hcfg : l.cfg.Enabled) (hlive : l.state ≠ .disabled) (hdrive : l.DriveLaw)
    (hstep : l.stepTimer.isSome ↔ l.state.automatic ∧ mode = .active)
    (hstop : l.stopTimer.isSome ↔ l.state = .stopWait ∧ mode = .active) (hrefresh : l.refreshTimer.isSome ↔ 0 < l.cfg.refresh)
    (hsat : l.state ≠ .running → l.satCount = 0) (hwait : l.state = .stopWait → 0 < l.cfg.stopTime)
    (hrev : l.revision < 256) (hguard : l.guardCount ≤ 255) : l.Sound mode := by
  obtain ⟨henable, hduties⟩ := hcfg
  refine ⟨hdrive, ⟨hstep, hstop, ?_⟩, ⟨?_, fun _ => hduties⟩, hsat, fun hd => absurd hd hlive, hwait, hrev, hguard⟩
  · simpa [hlive] using hrefresh
  · simp [hlive, henable]

/-- A loop that keeps STATE, DRIVE, SAT_COUNT and its static part is sound as far as its timers, PENDING and GUARD_COUNT are. -/
theorem Loop.Sound.same_state (h : l.Sound mode) {pending : Bool} {guardCount : Nat} {stepTimer stopTimer refreshTimer : Option Nat}
    (hstep : stepTimer.isSome ↔ l.state.automatic ∧ mode' = .active)
    (hstop : stopTimer.isSome ↔ l.state = .stopWait ∧ mode' = .active)
    (hrefresh : refreshTimer.isSome ↔ l.state ≠ .disabled ∧ 0 < l.cfg.refresh)
    (hpending : l.state = .disabled → pending = false) (hguard : guardCount ≤ 255) :
    ({ l with pending := pending, guardCount := guardCount, stepTimer := stepTimer, stopTimer := stopTimer
              refreshTimer := refreshTimer } : Loop).Sound mode' :=
  ⟨h.driveLaw, ⟨hstep, hstop, hrefresh⟩, h.enableLaw, h.no_satCount, hpending, h.stopTime_pos, h.revision_lt, hguard⟩

/-- What a change of STATE leaves of a loop that stays outside DISABLED: the static part, the refresh timer and GUARD_COUNT. -/
structure Loop.MovedLive (l l' : Loop) : Prop where
  moved : l.Moved l'
  live : l.state ≠ .disabled
  refreshTimer : l'.refreshTimer = l.refreshTimer
  guardCount : l'.guardCount = l.guardCount

/-- A loop that is moved between two states outside DISABLED is sound as far as its DRIVE, its step and stop timers and SAT_COUNT
are. -/
theorem Loop.Sound.moveLive (h : l.Sound mode) (hm : l.MovedLive l') (hlive' : l'.state ≠ .disabled)
    (hdrive : l'.DriveLaw) (hstep : l'.stepTimer.isSome ↔ l'.state.automatic ∧ mode' = .active)
    (hstop : l'.stopTimer.isSome ↔ l'.state = .stopWait ∧ mode' = .active)
    (hsat : l'.state ≠ .running → l'.satCount = 0) (hwait : l'.state = .stopWait → 0 < l.cfg.stopTime) : l'.Sound mode' := by
  refine Loop.sound_of_enabled ?_ hlive' hdrive hstep hstop ?_ hsat ?_ ?_ ?_
  · rw [hm.moved.cfg]
    exact h.enabled hm.live
  · rw [hm.refreshTimer, hm.moved.cfg, h.refreshTimer_iff, and_iff_right hm.live]
  · rw [hm.moved.cfg]
    exact hwait
  · rw [hm.moved.revision]
    exact h.revision_lt
  · rw [hm.guardCount]
    exact h.guard_le

/-- The entry into HELD, at FAILSAFE_DUTY with no timer of its own (R79, R89). -/
theorem Loop.Sound.toHeld (h : l.Sound mode) (hm : l.MovedLive l') (hstate : l'.state = .held)
    (hdrive : l'.drive = l.cfg.failsafeDuty) (hstep : l'.stepTimer = none) (hstop : l'.stopTimer = none)
    (hsat : l'.satCount = 0) : l'.Sound mode' := by
  apply h.moveLive hm <;> simp [Loop.DriveLaw, LoopState.automatic, *, hm.moved.cfg]

/-- The entry into STOPPED, at DRIVE 0 (R79, R84). -/
theorem Loop.Sound.toStopped (h : l.Sound mode) (hm : l.MovedLive l') (hstate : l'.state = .stopped) (hdrive : l'.drive = 0)
    (hstep : l'.stepTimer.isSome ↔ mode' = .active) (hstop : l'.stopTimer = none) (hsat : l'.satCount = 0) : l'.Sound mode' := by
  apply h.moveLive hm <;> simp [Loop.DriveLaw, LoopState.automatic, *]

/-- The entry into STARTING, at START_DUTY (R79, R82). -/
theorem Loop.Sound.toStarting (h : l.Sound mode) (hm : l.MovedLive l') (hstate : l'.state = .starting)
    (hdrive : l'.drive = l.cfg.startDuty) (hstep : l'.stepTimer.isSome ↔ mode' = .active) (hstop : l'.stopTimer = none)
    (hsat : l'.satCount = 0) : l'.Sound mode' := by
  apply h.moveLive hm <;> simp [Loop.DriveLaw, LoopState.automatic, *, hm.moved.cfg]

/-- The entry into RUNNING, within the running range (R79). -/
theorem Loop.Sound.toRunning (h : l.Sound mode) (hm : l.MovedLive l') (hstate : l'.state = .running)
    (hlo : l.cfg.stopDuty ≤ l'.drive) (hhi : l'.drive ≤ l.cfg.maxDuty) (hstep : l'.stepTimer.isSome ↔ mode' = .active)
    (hstop : l'.stopTimer = none) : l'.Sound mode' := by
  apply h.moveLive hm <;> simp [Loop.DriveLaw, LoopState.automatic, *, hm.moved.cfg]

/-- The entry into STOP_WAIT, at STOP_DUTY with both timers (R79, R87). -/
theorem Loop.Sound.toStopWait (h : l.Sound mode) (hm : l.MovedLive l') (hstate : l'.state = .stopWait)
    (hdrive : l'.drive = l.cfg.stopDuty) (hstep : l'.stepTimer.isSome ↔ mode' = .active)
    (hstop : l'.stopTimer.isSome ↔ mode' = .active) (hsat : l'.satCount = 0) (hwait : 0 < l.cfg.stopTime) : l'.Sound mode' := by
  apply h.moveLive hm <;> simp [Loop.DriveLaw, LoopState.automatic, *, hm.moved.cfg]

/-- The entry into MANUAL, at any duty with no timer of its own (R79, R91). -/
theorem Loop.Sound.toManual (h : l.Sound mode) (hm : l.MovedLive l') (hstate : l'.state = .manual)
    (hdrive : l'.drive ≤ 255) (hstep : l'.stepTimer = none) (hstop : l'.stopTimer = none)
    (hsat : l'.satCount = 0) : l'.Sound mode' := by
  apply h.moveLive hm <;> simp [Loop.DriveLaw, LoopState.automatic, *]

/-- The DRIVE of a loop in RUNNING or STARTING lies in the running range (R79). -/
theorem Loop.Sound.drive_in_range (h : l.Sound mode) (hstate : l.state = .running ∨ l.state = .starting) :
    l.cfg.stopDuty ≤ l.drive ∧ l.drive ≤ l.cfg.maxDuty := by
  have hdrive := h.driveLaw
  rcases hstate with hstate | hstate
  · simpa [Loop.DriveLaw, hstate] using hdrive
  · obtain ⟨hstop, hstart⟩ := (h.enabled (by simp [hstate])).duties
    have : l.drive = l.cfg.startDuty := by simpa [Loop.DriveLaw, hstate] using hdrive
    omega

/-! ### Steps (R81 to R86) -/

theorem Loop.Sound.stepStopped (h : l.Sound mode) (hstate : l.state = .stopped) (d : Demand) :
    (l.stepStopped mode d).Sound mode := by
  have live : ∀ d, l.MovedLive (l.stepStopped mode d) :=
    fun d => ⟨l.moved_stepStopped mode d, by simp [hstate], by cases d <;> rfl, by cases d <;> rfl⟩
  have hstop : l.stopTimer = none := h.no_stopTimer (by simp [hstate])
  have hsat : l.satCount = 0 := h.no_satCount (by simp [hstate])
  have hdrive : l.drive = 0 := by simpa [Loop.DriveLaw, hstate] using h.driveLaw
  cases d with
  | up => exact h.toStarting (live .up) rfl rfl (startInActive_isSome ..) hstop hsat
  | down => exact h.toStopped (live .down) hstate hdrive (startInActive_isSome ..) hstop hsat
  | hold => exact h.toStopped (live .hold) hstate hdrive (startInActive_isSome ..) hstop hsat

theorem Loop.Sound.stepStopWait (h : l.Sound mode) (hstate : l.state = .stopWait) (d : Demand) :
    (l.stepStopWait mode d).Sound mode := by
  have live : ∀ d, l.MovedLive (l.stepStopWait mode d) :=
    fun d => ⟨l.moved_stepStopWait mode d, by simp [hstate], by cases d <;> rfl, by cases d <;> rfl⟩
  obtain ⟨hstop, hstart⟩ := (h.enabled (by simp [hstate])).duties
  have hsat : l.satCount = 0 := h.no_satCount (by simp [hstate])
  have hwait := h.stopTime_pos hstate
  have hdrive : l.drive = l.cfg.stopDuty := by simpa [Loop.DriveLaw, hstate] using h.driveLaw
  have htimer : l.stopTimer.isSome = true ↔ mode = .active := by simpa [hstate] using h.stopTimer_iff
  cases d with
  | up =>
    have hlo : l.cfg.stopDuty ≤ min (l.cfg.stopDuty + l.cfg.step) l.cfg.maxDuty := by omega
    exact h.toRunning (live .up) rfl hlo (Nat.min_le_right ..) (startInActive_isSome ..) rfl
  | down => exact h.toStopWait (live .down) hstate hdrive (startInActive_isSome ..) htimer hsat hwait
  | hold => exact h.toStopWait (live .hold) hstate hdrive (startInActive_isSome ..) htimer hsat hwait

end

/-! ### A step in RUNNING, outcome by outcome (R83 to R85) -/

section
variable {mode mode' : Mode} {l l' : Loop}

theorem Loop.stepWith_stopped (h : l.state = .stopped) (d : Demand) : l.stepWith mode d = (l.stepStopped mode d, false) := by
  simp only [Loop.stepWith, h]

theorem Loop.stepWith_stopWait (h : l.state = .stopWait) (d : Demand) : l.stepWith mode d = (l.stepStopWait mode d, false) := by
  simp only [Loop.stepWith, h]

/-- A step in STARTING is taken as one in RUNNING (R83). -/
theorem Loop.stepWith_regulates (h : l.state = .running ∨ l.state = .starting) (d : Demand) :
    l.stepWith mode d = Loop.stepRunning mode d { l with state := .running } := by
  rcases h with h | h
  · have running : ({ l with state := .running } : Loop) = l := by rw [← h]
    rw [running]
    simp only [Loop.stepWith, h]
  · simp only [Loop.stepWith, h]

/-- A loop brought to RUNNING by a step that is not a refused raise (R84). -/
def Loop.regulated (l : Loop) (drive : Nat) (timer : Option Nat) : Loop :=
  { l.setDrive drive with state := .running, satCount := 0, stepTimer := timer }

theorem Loop.stepRunning_raise (hlt : l.drive < l.cfg.maxDuty) :
    Loop.stepRunning mode .up { l with state := .running } =
      (l.regulated (min (l.drive + l.cfg.step) l.cfg.maxDuty) (startInActive mode l.cfg.upInterval), false) :=
  if_pos hlt

theorem Loop.stepRunning_lower (hlt : l.cfg.stopDuty < l.drive) :
    Loop.stepRunning mode .down { l with state := .running } =
      (l.regulated (max (l.drive - l.cfg.step) l.cfg.stopDuty) (startInActive mode l.cfg.downInterval), false) :=
  if_pos hlt

/-- A refused raise changes SAT_COUNT only, and the next step comes after UP_INTERVAL (R84, R85). -/
theorem Loop.stepRunning_refuse (hge : l.cfg.maxDuty ≤ l.drive) :
    Loop.stepRunning mode .up { l with state := .running } =
      ({ l with state := .running, satCount := l.refusedRaise.1.satCount, stepTimer := startInActive mode l.cfg.upInterval },
        l.refusedRaise.2) := by
  have step : Loop.stepRunning mode .up { l with state := .running } =
      (Loop.nextStepUp mode (Loop.refusedRaise { l with state := .running }).1,
        (Loop.refusedRaise { l with state := .running }).2) := if_neg (Nat.not_lt.2 hge)
  rw [step]
  unfold Loop.refusedRaise
  dsimp only
  split
  · rfl
  · split <;> rfl

/-- DOWN at STOP_DUTY starts the stop timer, or switches the loop off where STOP_TIME is 0 (R84, R87). -/
theorem Loop.stepRunning_floor (hle : l.drive ≤ l.cfg.stopDuty) :
    Loop.stepRunning mode .down { l with state := .running } =
      (Loop.nextStepDown mode (Loop.startStopTimer mode { l with state := .stopWait, satCount := 0 }), false) :=
  if_neg (Nat.not_lt.2 hle)

theorem Loop.stepRunning_wait (hle : l.drive ≤ l.cfg.stopDuty) (hpos : 0 < l.cfg.stopTime) :
    Loop.stepRunning mode .down { l with state := .running } =
      ({ l with state := .stopWait, satCount := 0, stopTimer := startInActive mode l.cfg.stopTime
                stepTimer := startInActive mode l.cfg.downInterval }, false) := by
  rw [Loop.stepRunning_floor hle, Loop.startStopTimer, if_neg (Nat.ne_of_gt hpos)]
  rfl

theorem Loop.stepRunning_stop (hle : l.drive ≤ l.cfg.stopDuty) (hzero : l.cfg.stopTime = 0) :
    Loop.stepRunning mode .down { l with state := .running } =
      ({ l.setDrive 0 with state := .stopped, satCount := 0, stopTimer := none
                           stepTimer := startInActive mode l.cfg.downInterval }, false) := by
  rw [Loop.stepRunning_floor hle, Loop.startStopTimer, if_pos hzero]
  rfl

/-- A step in RUNNING, of a loop that RUNNING or STARTING has brought there (R83, R84). -/
theorem Loop.Sound.stepRunning (h : l.Sound mode) (hstate : l.state = .running ∨ l.state = .starting) (d : Demand) :
    (Loop.stepRunning mode d { l with state := .running }).1.Sound mode := by
  obtain ⟨hlo, hhi⟩ := h.drive_in_range hstate
  have live : l.state ≠ .disabled := by rcases hstate with h | h <;> simp [h]
  have hstop : l.stopTimer = none := h.no_stopTimer (by rcases hstate with h | h <;> simp [h])
  have moved := (⟨rfl, rfl, fun h => h.2⟩ : l.Moved { l with state := .running }).trans (Loop.moved_stepRunning mode d _)
  cases d with
  | up =>
    rcases Nat.lt_or_ge l.drive l.cfg.maxDuty with hlt | hge
    · rw [Loop.stepRunning_raise hlt] at moved ⊢
      exact h.toRunning ⟨moved, live, rfl, rfl⟩ rfl (Nat.le_min.2 ⟨by omega, by omega⟩) (Nat.min_le_right ..)
        (startInActive_isSome ..) hstop
    · rw [Loop.stepRunning_refuse hge] at moved ⊢
      exact h.toRunning ⟨moved, live, rfl, rfl⟩ rfl hlo hhi (startInActive_isSome ..) hstop
  | down =>
    rcases Nat.lt_or_ge l.cfg.stopDuty l.drive with hlt | hle
    · rw [Loop.stepRunning_lower hlt] at moved ⊢
      exact h.toRunning ⟨moved, live, rfl, rfl⟩ rfl (Nat.le_max_right ..) (Nat.max_le.2 ⟨by omega, by omega⟩)
        (startInActive_isSome ..) hstop
    · rcases Nat.eq_zero_or_pos l.cfg.stopTime with hzero | hpos
      · rw [Loop.stepRunning_stop hle hzero] at moved ⊢
        exact h.toStopped ⟨moved, live, rfl, rfl⟩ rfl rfl (startInActive_isSome ..) rfl rfl
      · rw [Loop.stepRunning_wait hle hpos] at moved ⊢
        exact h.toStopWait ⟨moved, live, rfl, rfl⟩ rfl (Nat.le_antisymm hle hlo) (startInActive_isSome ..)
          (startInActive_isSome ..) rfl hpos
  | hold => exact h.toRunning ⟨moved, live, rfl, rfl⟩ rfl hlo hhi (startInActive_isSome ..) hstop

/-- A step, in every state and with every demand (R81 to R86). -/
theorem Loop.Sound.stepWith (h : l.Sound mode) (d : Demand) : (l.stepWith mode d).1.Sound mode := by
  cases hstate : l.state with
  | stopped =>
    rw [Loop.stepWith_stopped hstate]
    exact h.stepStopped hstate d
  | starting =>
    rw [Loop.stepWith_regulates (.inr hstate)]
    exact h.stepRunning (.inr hstate) d
  | running =>
    rw [Loop.stepWith_regulates (.inl hstate)]
    exact h.stepRunning (.inl hstate) d
  | stopWait =>
    rw [Loop.stepWith_stopWait hstate]
    exact h.stepStopWait hstate d
  | disabled | held | manual =>
    simp only [Loop.stepWith, hstate]
    exact h

/-! ### Source events and manual override (R89 to R92) -/

theorem Loop.Sound.sourceStale (h : l.Sound mode) : l.sourceStale.Sound mode := by
  have moved := l.moved_sourceStale
  unfold Loop.sourceStale at moved ⊢
  split at moved
  · next hauto =>
    have live : l.state ≠ .disabled := by
      intro hd
      simp [hd, LoopState.automatic] at hauto
    rw [if_pos hauto]
    exact h.toHeld ⟨moved, live, rfl, rfl⟩ rfl rfl rfl rfl rfl
  · next hauto =>
    rw [if_neg hauto]
    exact h

/-- The resume from HELD (R90). -/
theorem Loop.Sound.sourceSample (h : l.Sound mode) : (l.sourceSample mode).Sound mode := by
  cases hstate : l.state with
  | held =>
    have hstop : l.stopTimer = none := h.no_stopTimer (by simp [hstate])
    have live : l.state ≠ .disabled := by simp [hstate]
    obtain ⟨hle, hle'⟩ := (h.enabled live).duties
    have moved := l.moved_sourceSample mode
    simp only [Loop.sourceSample, hstate, Loop.resume] at moved ⊢
    by_cases hduty : l.cfg.stopDuty ≤ l.cfg.failsafeDuty
    · rw [if_pos hduty] at moved ⊢
      exact h.toRunning ⟨moved, live, rfl, rfl⟩ rfl (Nat.le_min.2 ⟨hduty, by omega⟩) (Nat.min_le_right ..)
        (startInActive_isSome ..) hstop
    · rw [if_neg hduty] at moved ⊢
      exact h.toStopped ⟨moved, live, rfl, rfl⟩ rfl rfl (startInActive_isSome ..) hstop rfl
  | disabled | stopped | starting | running | stopWait | manual =>
    simp only [Loop.sourceSample, hstate]
    exact h

theorem Loop.Sound.enterManual (h : l.Sound mode) (hlive : l.state ≠ .disabled) {d : Nat} (hd : d ≤ 255) :
    (l.enterManual d).Sound mode :=
  h.toManual ⟨⟨rfl, rfl, fun _ => ⟨hd, Nat.zero_le _⟩⟩, hlive, rfl, rfl⟩ rfl hd rfl rfl rfl

/-- The release of a loop in MANUAL, whatever its source says (R92). -/
theorem Loop.Sound.release (h : l.Sound mode) (hstate : l.state = .manual) (source : ChannelState) :
    (l.release mode source).Sound mode := by
  have hstep : l.stepTimer = none := h.no_stepTimer (by simp [hstate, LoopState.automatic])
  have hstop : l.stopTimer = none := h.no_stopTimer (by simp [hstate])
  have live : l.state ≠ .disabled := by simp [hstate]
  obtain ⟨hle, hle'⟩ := (h.enabled live).duties
  have moved := l.moved_release mode source
  unfold Loop.release at moved ⊢
  cases source with
  | stale | unseen => exact h.toHeld ⟨moved, live, rfl, rfl⟩ rfl rfl hstep hstop rfl
  | normal | highPend | high | lowPend | low =>
    by_cases hduty : l.cfg.stopDuty ≤ l.drive
    · simp only [if_pos hduty] at moved ⊢
      exact h.toRunning ⟨moved, live, rfl, rfl⟩ rfl (Nat.le_min.2 ⟨hduty, by omega⟩) (Nat.min_le_right ..)
        (startInActive_isSome ..) hstop
    · simp only [if_neg hduty] at moved ⊢
      exact h.toStopped ⟨moved, live, rfl, rfl⟩ rfl rfl (startInActive_isSome ..) hstop rfl

/-! ### Slots and timers (R87, R93 to R98) -/

theorem Loop.Sound.refreshRestarted (h : l.Sound mode) (hlive : l.state ≠ .disabled) (pending : Bool) :
    (Loop.startRefresh { l with pending := pending }).Sound mode :=
  h.same_state h.stepTimer_iff h.stopTimer_iff (by simp [hlive]) (fun hd => absurd hd hlive) h.guard_le

theorem Loop.Sound.countGuard (h : l.Sound mode) : l.countGuard.Sound mode :=
  h.same_state h.stepTimer_iff h.stopTimer_iff h.refreshTimer_iff h.pending_off (Nat.min_le_right ..)

theorem Loop.Sound.resync (h : l.Sound mode) : l.resync.Sound mode := by
  unfold Loop.resync
  split
  · exact h
  all_goals
    next hstate =>
    exact h.same_state h.stepTimer_iff h.stopTimer_iff h.refreshTimer_iff (fun hd => absurd (hstate.symm.trans hd) nofun)
      h.guard_le

theorem Loop.stopExpired_of_stopWait (h : l.state = .stopWait) :
    l.stopExpired = { l.enterStopped with pending := true } := by
  simp only [Loop.stopExpired, h]

theorem Loop.Sound.stopExpired (h : l.Sound mode) : l.stopExpired.Sound mode := by
  by_cases hstate : l.state = .stopWait
  · have hstep : l.stepTimer.isSome ↔ mode = .active := by simpa [hstate, LoopState.automatic] using h.stepTimer_iff
    have moved := l.moved_stopExpired
    rw [Loop.stopExpired_of_stopWait hstate] at moved ⊢
    exact h.toStopped ⟨moved, by simp [hstate], rfl, rfl⟩ rfl rfl hstep rfl rfl
  · have out : l.stopExpired = { l with stopTimer := none } := by
      unfold Loop.stopExpired
      split
      · contradiction
      all_goals rfl
    rw [out]
    exact h.same_state h.stepTimer_iff (by simp [hstate]) h.refreshTimer_iff h.pending_off h.guard_le

theorem Loop.Sound.count (h : l.Sound mode) : l.count.Sound mode :=
  h.same_state (by rw [countTicks_isSome]; exact h.stepTimer_iff) (by rw [countTicks_isSome]; exact h.stopTimer_iff)
    (by rw [countTicks_isSome]; exact h.refreshTimer_iff) h.pending_off h.guard_le

/-! ### Mode switch and warm reset (R97, R100) -/

theorem Loop.Sound.toPass (h : l.Sound mode) : l.toPass.Sound .pass :=
  h.same_state (by simp) (by simp) h.refreshTimer_iff h.pending_off h.guard_le

/-- A loop without a step timer and a stop timer to run is sound in either mode. -/
theorem Loop.Sound.change_mode (h : l.Sound mode) (hstate : l.state.automatic = false) : l.Sound mode' := by
  have hwait : l.state ≠ .stopWait := by
    intro hw
    simp [hw, LoopState.automatic] at hstate
  exact h.same_state (by simp [hstate, h.no_stepTimer hstate]) (by simp [hwait, h.no_stopTimer hwait]) h.refreshTimer_iff
    h.pending_off h.guard_le

theorem Loop.Sound.toActive (h : l.Sound .pass) : l.toActive.Sound .active := by
  have hstop : l.stopTimer = none := by simpa using h.stopTimer_iff
  have restarted : l.state ≠ .stopWait → l.state.automatic = true → ∀ ticks,
      ({ l with stepTimer := startInActive .active ticks } : Loop).Sound .active := fun hw ha ticks =>
    h.same_state (by simp [ha]) (by simp [hw, hstop]) h.refreshTimer_iff h.pending_off h.guard_le
  cases hstate : l.state with
  | stopped | starting | running =>
    simp only [Loop.toActive, hstate]
    exact restarted (by simp [hstate]) (by simp [hstate, LoopState.automatic]) _
  | stopWait =>
    have hpos : (l.nextStepDown .active).cfg.stopTime ≠ 0 := Nat.ne_of_gt (h.stopTime_pos hstate)
    have out : l.toActive = Loop.startStopTimer .active (l.nextStepDown .active) := by simp only [Loop.toActive, hstate]
    rw [out, Loop.startStopTimer, if_neg hpos]
    refine h.same_state ?_ ?_ h.refreshTimer_iff h.pending_off h.guard_le
    · simp [hstate, Loop.nextStepDown, LoopState.automatic]
    · simp [hstate]
  | disabled | held | manual =>
    simp only [Loop.toActive, hstate]
    exact h.change_mode (by simp [hstate, LoopState.automatic])

theorem Loop.Sound.warmReset (h : l.Sound mode) : l.warmReset.Sound mode := by
  by_cases hstate : l.state = .disabled
  · have out : l.warmReset = { l with guardCount := 0 } := by
      unfold Loop.warmReset
      rw [hstate]
    rw [out]
    exact h.same_state h.stepTimer_iff h.stopTimer_iff h.refreshTimer_iff h.pending_off (Nat.zero_le _)
  · have held : l.warmReset = Loop.startRefresh
        { l with state := .held, drive := l.cfg.failsafeDuty, pending := true, satCount := 0, guardCount := 0
                 stepTimer := none, stopTimer := none } := by
      unfold Loop.warmReset
      split
      · contradiction
      all_goals rfl
    rw [held]
    exact Loop.sound_of_enabled (h.enabled hstate) nofun rfl (by simp [Loop.startRefresh, LoopState.automatic])
      (by simp [Loop.startRefresh]) (startUnlessZero_isSome _) (fun _ => rfl) nofun h.revision_lt (Nat.zero_le _)

/-! ### Installs, REMOVE and cold reset (R99, R172, R173, R176) -/

/-- A loop in DISABLED with ENABLE no (R99). -/
theorem Loop.sound_of_disabled (hcfg : l.cfg.enable = false) (hrev : l.revision < 256) (hguard : l.guardCount ≤ 255)
    (hstate : l.state = .disabled) (hdrive : l.drive = 0) (hsat : l.satCount = 0) (hpending : l.pending = false)
    (hstep : l.stepTimer = none) (hstop : l.stopTimer = none) (hrefresh : l.refreshTimer = none) : l.Sound mode := by
  simp [Loop.Sound, Loop.DriveLaw, Loop.TimersLaw, Loop.EnableLaw, LoopState.automatic, *]

theorem Loop.sound_coldReset : Loop.coldReset.Sound mode :=
  Loop.sound_of_disabled rfl (by decide) (by decide) rfl rfl rfl rfl rfl rfl rfl

theorem Loop.Sound.remove (h : l.Sound mode) : l.remove.Sound mode :=
  Loop.sound_of_disabled rfl (wrap8_lt _) h.guard_le rfl rfl rfl rfl rfl rfl rfl

theorem Loop.Sound.installDisabled (h : l.Sound mode) {cfg : LoopConfig} (hcfg : cfg.enable = false) :
    (l.installDisabled cfg).Sound mode := by
  have hguard : (if l.rebinds cfg then 0 else l.guardCount) ≤ 255 := by
    have := h.guard_le
    split <;> omega
  exact Loop.sound_of_disabled hcfg (wrap8_lt _) hguard rfl rfl rfl rfl rfl rfl rfl

theorem Loop.sound_freshInstall {cfg : LoopConfig} (hcfg : cfg.Enabled) (last : Option Int) (l : Loop) :
    (l.freshInstall mode last cfg).Sound mode := by
  obtain ⟨hstop, hstart⟩ := hcfg.duties
  unfold Loop.freshInstall
  cases last with
  | some v =>
    exact Loop.sound_of_enabled hcfg nofun ⟨hstop, hstart⟩ (by simp [Loop.startRefresh, LoopState.automatic])
      (by simp [Loop.startRefresh]) (startUnlessZero_isSome _) (fun _ => rfl) nofun (wrap8_lt _) (Nat.zero_le _)
  | none =>
    exact Loop.sound_of_enabled hcfg nofun rfl (by simp [Loop.startRefresh, LoopState.automatic])
      (by simp [Loop.startRefresh]) (startUnlessZero_isSome _) (fun _ => rfl) nofun (wrap8_lt _) (Nat.zero_le _)

/-- A re-install keeps STATE and brings DRIVE to the value that STATE requires under the new duties (R173). -/
theorem Loop.Sound.reinstall (h : l.Sound mode) (hlive : l.state ≠ .disabled) {cfg : LoopConfig} (hcfg : cfg.Enabled) :
    (l.reinstall mode cfg).Sound mode := by
  obtain ⟨hstop, hstart⟩ := hcfg.duties
  have kept : ∀ drive pending,
      ({ l with cfg := cfg, drive := drive } : Loop).DriveLaw → (l.state = .stopWait → 0 < cfg.stopTime) →
      (Loop.startRefresh { l with cfg := cfg, revision := wrap8 l.revision, drive := drive, pending := pending }).Sound mode :=
    fun drive pending hdrive hwait =>
      Loop.sound_of_enabled hcfg hlive hdrive h.stepTimer_iff h.stopTimer_iff (startUnlessZero_isSome _) h.no_satCount hwait
        (wrap8_lt _) h.guard_le
  unfold Loop.reinstall
  dsimp only
  split
  · next hstate =>
    refine kept _ _ ?_ (by simp [hstate])
    simp only [Loop.DriveLaw, hstate]
    omega
  · next hstate => exact kept _ _ (by simp only [Loop.DriveLaw, hstate]) (by simp [hstate])
  · next hstate =>
    have hstep : l.stepTimer.isSome ↔ mode = .active := by simpa [hstate, LoopState.automatic] using h.stepTimer_iff
    unfold Loop.startStopTimer
    split
    · exact Loop.sound_of_enabled hcfg nofun rfl
        (hstep.trans (by simp [Loop.enterStopped, LoopState.automatic])) (by simp [Loop.enterStopped])
        (startUnlessZero_isSome _) (fun _ => rfl) nofun (wrap8_lt _) h.guard_le
    · next hpos =>
      exact Loop.sound_of_enabled hcfg hlive (by simp [Loop.DriveLaw, hstate, Loop.setDrive, Loop.startRefresh])
        h.stepTimer_iff (by simp [hstate, Loop.setDrive, Loop.startRefresh]) (startUnlessZero_isSome _) h.no_satCount
        (fun _ => Nat.pos_of_ne_zero hpos) (wrap8_lt _) h.guard_le
  · next hstate => exact kept _ _ (by simp only [Loop.DriveLaw, hstate]) (by simp [hstate])
  · next hstate => exact kept _ _ (by simp only [Loop.DriveLaw, hstate]) (by simp [hstate])
  · next hstate => exact kept l.drive l.pending (by simpa [Loop.DriveLaw, hstate] using h.driveLaw) (by simp [hstate])
  · contradiction

end
end Sys2Proof.Machine

/-! ### What a command leaves of the laws of the loops -/

namespace Sys2Proof.Machine

/-- What every command but an enabled install does to a loop: it is kept out of DISABLED only if it was out of it, with its SOURCE
and its actuator, and its laws are kept, the conditioner mode going from `mode` to `mode'`. -/
structure Loop.Kept (mode mode' : Mode) (l l' : Loop) : Prop where
  bound : l'.state ≠ .disabled → l.state ≠ .disabled ∧ l'.cfg.source = l.cfg.source ∧ l'.cfg.actKey = l.cfg.actKey
  sound : l.Sound mode → l'.Sound mode'

theorem Loop.Kept.refl (mode : Mode) (l : Loop) : l.Kept mode mode l := ⟨fun h => ⟨h, rfl, rfl⟩, id⟩

/-- A loop that keeps its static part and is not brought out of DISABLED. -/
theorem Loop.Kept.of_moved {mode mode' : Mode} {l l' : Loop} (hmoved : l.Moved l')
    (hstate : l.state = .disabled → l'.state = .disabled) (hsound : l.Sound mode → l'.Sound mode') : l.Kept mode mode' l' :=
  ⟨fun h => ⟨fun hd => h (hstate hd), by rw [hmoved.cfg], by rw [hmoved.cfg]⟩, hsound⟩

theorem Loop.Kept.of_disabled {mode mode' : Mode} {l l' : Loop} (hstate : l'.state = .disabled)
    (hsound : l.Sound mode → l'.Sound mode') : l.Kept mode mode' l' :=
  ⟨fun h => absurd hstate h, hsound⟩

/-- What a command does to the loops: it keeps each of them, and does not take its valid SOURCE from a loop outside DISABLED; or it
makes an enabled install into one of them, of a record that has passed the checks (R168). -/
inductive KeepsLoops (s t : State) : Prop
  | kept : (∀ n : Fin Config.channelCount, s.channels[n].valid = true → t.channels[n].valid = true
        ∨ ∀ k : Fin Config.loopCount, t.loops[k].state ≠ .disabled → t.loops[k].cfg.source ≠ n) →
      (∀ k : Fin Config.loopCount, s.loops[k].Kept s.settings.mode t.settings.mode t.loops[k]) → KeepsLoops s t
  | installed (k : Fin Config.loopCount) (l : Loop) : s.channels[l.cfg.source].valid = true →
      (∀ j : Fin Config.loopCount, j ≠ k → s.loops[j].state ≠ .disabled → s.loops[j].cfg.actKey ≠ l.cfg.actKey) →
      (s.loops[k].Sound s.settings.mode → l.Sound s.settings.mode) → t.settings = s.settings → t.channels = s.channels →
      t.loops = s.loops.set k l → KeepsLoops s t

theorem KeepsLoops.loopsSound {s t : State} (h : KeepsLoops s t) (hs : s.LoopsSound) : t.LoopsSound := by
  intro j
  cases h with
  | kept _ hloop => exact (hloop j).sound (hs j)
  | installed k l _ _ hsound hsettings _ hloops =>
    rw [hsettings, hloops, getElem_set_table]
    split
    · exact hsound (hs k)
    · exact hs j

theorem KeepsLoops.actuatorsDistinct {s t : State} (h : KeepsLoops s t) (hs : s.ActuatorsDistinct) : t.ActuatorsDistinct := by
  obtain ⟨hdistinct, hsource⟩ := hs
  cases h with
  | kept hvalid hloop =>
    refine ⟨fun i j hi hj hkey => ?_, fun k hk => ?_⟩
    · obtain ⟨hi', -, hikey⟩ := (hloop i).bound hi
      obtain ⟨hj', -, hjkey⟩ := (hloop j).bound hj
      exact hdistinct i j hi' hj' (by rw [← hikey, hkey, hjkey])
    · obtain ⟨hk', hsame, -⟩ := (hloop k).bound hk
      rcases hvalid _ (hsource k hk') with h | h
      · simpa only [hsame] using h
      · exact absurd hsame (h k hk)
  | installed k l hvalid hfree _ _ hchannels hloops =>
    have here : t.loops[k] = l := by rw [hloops, getElem_set_table, if_pos rfl]
    have there : ∀ j : Fin Config.loopCount, j ≠ k → t.loops[j] = s.loops[j] := fun j hj => by
      rw [hloops, getElem_set_table, if_neg hj]
    refine ⟨fun i j => ?_, fun j hj => ?_⟩
    · by_cases hi : i = k
      · by_cases hj : j = k
        · exact fun _ _ _ => hi.trans hj.symm
        · rw [hi, here, there j hj]
          exact fun _ hlive hkey => absurd hkey.symm (hfree j hj hlive)
      · by_cases hj : j = k
        · rw [hj, here, there i hi]
          exact fun hlive _ hkey => absurd hkey (hfree i hi hlive)
        · rw [there i hi, there j hj]
          exact hdistinct i j
    · rw [hchannels]
      by_cases hjk : j = k
      · subst hjk
        simpa only [here] using hvalid
      · have := hsource j (by rwa [there j hjk] at hj)
        simpa only [there j hjk] using this

/-! ### Commands that leave the loops, or change one or all of them -/

/-- Two parts agree on what the laws of the loops look at: the settings, the entries and the loops. -/
structure State.SameControls (s t : State) : Prop where
  settings : t.settings = s.settings
  channels : t.channels = s.channels
  loops : t.loops = s.loops

theorem State.SameControls.refl (s : State) : s.SameControls s := ⟨rfl, rfl, rfl⟩

theorem State.SameControls.trans {s t u : State} (h : s.SameControls t) (h' : t.SameControls u) : s.SameControls u :=
  ⟨h'.settings.trans h.settings, h'.channels.trans h.channels, h'.loops.trans h.loops⟩

theorem State.sameControls_of_content {s t : State} (h : t.content = s.content) : s.SameControls t := by
  obtain ⟨hsettings, hchannels, -, -, hloops, -⟩ := State.content_eq_iff.1 h
  exact ⟨hsettings, hchannels, hloops⟩

section
variable {s s' t t' : State}

theorem KeepsLoops.of_same (h : s.SameControls t) : KeepsLoops s t := by
  refine .kept (fun n hv => .inl ?_) fun k => ?_
  · rw [h.channels]
    exact hv
  · rw [h.settings, h.loops]
    exact .refl _ _

theorem KeepsLoops.refl (s : State) : KeepsLoops s s := .of_same (.refl s)

/-- The settings, the entries and the loops alone decide. -/
theorem KeepsLoops.congr (h : KeepsLoops s t) (hs : s.SameControls s') (ht : t.SameControls t') : KeepsLoops s' t' := by
  obtain ⟨hsettings, hchannels, hloops⟩ := hs
  obtain ⟨hsettings', hchannels', hloops'⟩ := ht
  cases h with
  | kept hvalid hloop =>
    rw [← hchannels, ← hchannels', ← hloops'] at hvalid
    rw [← hsettings, ← hsettings', ← hloops, ← hloops'] at hloop
    exact .kept hvalid hloop
  | installed k l hvalid hfree hsound hsettings'' hchannels'' hloops'' =>
    rw [← hchannels] at hvalid hchannels''
    rw [← hloops] at hfree hsound hloops''
    rw [← hsettings] at hsound hsettings''
    exact .installed k l hvalid hfree hsound (hsettings'.trans hsettings'') (hchannels'.trans hchannels'')
      (hloops'.trans hloops'')

theorem KeepsLoops.from_same (h : KeepsLoops s t) (hs : s.SameControls s') : KeepsLoops s' t := h.congr hs (.refl t)

/-- The running of the part leaves the settings and the validity of every entry: the loops alone decide. -/
theorem TableEffect.keepsLoops (h : TableEffect s t)
    (hloop : ∀ k : Fin Config.loopCount, s.loops[k].Kept s.settings.mode s.settings.mode t.loops[k]) : KeepsLoops s t := by
  refine .kept (fun n hv => .inl ?_) fun k => ?_
  · rw [(h.channel n).valid]
    exact hv
  · rw [h.sameRest.settings]
    exact hloop k

theorem TableEffect.keepsLoops_of_same (h : TableEffect s t) (hloops : t.loops = s.loops) : KeepsLoops s t :=
  h.keepsLoops fun k => by rw [hloops]; exact .refl _ _

/-- A table of loops in which one was kept. -/
theorem Loop.kept_set {mode : Mode} {v : Vector Loop Config.loopCount} {k : Fin Config.loopCount} {l : Loop}
    (h : v[k].Kept mode mode l) (j : Fin Config.loopCount) : v[j].Kept mode mode (v.set k l)[j] := by
  rw [getElem_set_table]
  split
  · next hj => exact hj ▸ h
  · exact .refl mode _

theorem KeepsLoops.updateLoop {k : Fin Config.loopCount} {f : Loop → Loop}
    (h : s.loops[k].Kept s.settings.mode s.settings.mode (f s.loops[k])) : KeepsLoops s (s.updateLoop k f) :=
  .kept (fun _ hv => .inl hv) (Loop.kept_set h)

end

/-! ### Steps, events and slots -/

theorem Loop.kept_stepWith (mode : Mode) (d : Demand) (l : Loop) : l.Kept mode mode (l.stepWith mode d).1 :=
  .of_moved (l.moved_stepWith mode d) (fun hd => by simp only [Loop.stepWith, hd]) fun h => h.stepWith d

theorem Loop.kept_sourceStale (mode : Mode) (l : Loop) : l.Kept mode mode l.sourceStale :=
  .of_moved l.moved_sourceStale (fun hd => by simp [Loop.sourceStale, hd, LoopState.automatic]) fun h => h.sourceStale

theorem Loop.kept_sourceSample (mode : Mode) (l : Loop) : l.Kept mode mode (l.sourceSample mode) :=
  .of_moved (l.moved_sourceSample mode) (fun hd => by simp only [Loop.sourceSample, hd]) fun h => h.sourceSample

theorem Loop.kept_resync (mode : Mode) (l : Loop) : l.Kept mode mode l.resync :=
  .of_moved l.moved_resync (fun hd => by simp only [Loop.resync, hd]) fun h => h.resync

theorem Loop.kept_served {l : Loop} (mode : Mode) (h : l.pending = true) : l.Kept mode mode l.served := by
  refine .of_moved ⟨rfl, rfl, fun h => h.2⟩ id fun hl => hl.refreshRestarted (fun hd => ?_) false
  rw [hl.pending_off hd] at h
  cases h

theorem Loop.kept_refreshExpired {l : Loop} (mode : Mode) (h : l.refreshTimer.isSome) : l.Kept mode mode l.refreshExpired :=
  .of_moved ⟨rfl, rfl, fun h => h.2⟩ id fun hl => hl.refreshRestarted (hl.refreshTimer_iff.1 h).1 true

theorem Loop.kept_stopExpired (mode : Mode) (l : Loop) : l.Kept mode mode l.stopExpired :=
  .of_moved l.moved_stopExpired (fun hd => by simp only [Loop.stopExpired, hd]) fun h => h.stopExpired

theorem keepsLoops_takeHit {s : State} {n : Fin Config.channelCount} {c : Cell} (hm : s.settings.mode = .active)
    (hv : s.channels[n].valid = true) : KeepsLoops s (s.takeHit n c) := by
  refine (TableEffect.hit n c hm hv).keepsLoops fun k => ?_
  obtain ⟨d, d', q, pin, seq, fifo, lost, -, -, ht⟩ := s.takeHit_spec n c
  rw [ht]
  dsimp only
  rw [mapTable_fin]
  split
  · exact Loop.kept_sourceSample _ _
  · exact .refl _ _

theorem keepsLoops_enterSync (s : State) (p : Port) : KeepsLoops s (s.enterSync p) := by
  cases p with
  | north =>
    exact (TableEffect.linkUp .north).keepsLoops_of_same (by simp [State.enterSync, State.portReturns])
  | south =>
    have loops : (s.enterSync .south).loops = mapTable Loop.resync s.loops := by simp [State.enterSync, State.portReturns]
    refine (TableEffect.linkUp .south).keepsLoops fun k => ?_
    rw [loops, mapTable_fin]
    exact Loop.kept_resync _ _

theorem keepsLoops_dispatch (s : State) (p : Port) (c : Cell) : KeepsLoops s (s.dispatch p c) := by
  have same : ∀ t : State, t.content = s.content → KeepsLoops s t := fun t h => .of_same (State.sameControls_of_content h)
  rcases s.dispatch_cases p c with
    h | ⟨-, -, h⟩ | ⟨d, -, -, h⟩ | ⟨d, -, h⟩ | ⟨-, -, h⟩ | ⟨-, h⟩ | ⟨k, -, -, h⟩ <;> rw [h]
  · exact .refl _
  · rcases s.classify_cases c with ⟨-, h⟩ | ⟨n, hm, hv, -, h⟩ | ⟨-, -, h⟩ <;> rw [h]
    · exact same _ (s.content_handNorth c)
    · exact keepsLoops_takeHit hm hv
    · obtain ⟨fifo, lost, hmiss⟩ := s.takeMiss_spec c
      rw [hmiss]
      exact .of_same ⟨rfl, rfl, rfl⟩
  · exact same _ (s.content_handNorth d)
  · exact same _ (s.content_handSouth d)
  · exact .of_same ⟨rfl, rfl, rfl⟩
  · exact .of_same ⟨rfl, rfl, rfl⟩
  · exact .updateLoop (.of_moved ⟨rfl, rfl, fun h => h.2⟩ id fun h => h.countGuard)

theorem keepsLoops_arrival (s : State) (p : Port) (a : Arrival) : KeepsLoops s (s.takeArrival p a) := by
  have received : ∀ r, (s.withReceiver p r).SameControls s := fun r => by cases p <;> exact ⟨rfl, rfl, rfl⟩
  rcases s.takeArrival_cases p a with ⟨r, h, -⟩ | ⟨r, h, -⟩ | ⟨r, h, -⟩ | ⟨c, -, -, -, h⟩ <;> rw [h]
  · exact (KeepsLoops.refl _).from_same (received r)
  · exact (keepsLoops_enterSync _ p).from_same (received r)
  · exact ((TableEffect.linkDown p).keepsLoops_of_same (State.enterHunt_loops _ p)).from_same (received r)
  · exact (keepsLoops_dispatch _ p c).from_same (received _)

theorem keepsLoops_northSlot (s : State) : KeepsLoops s s.fillNorthSlot := by
  have forwarded : KeepsLoops s s.sendForwarded := .of_same (State.sameControls_of_content s.content_sendForwarded)
  unfold State.fillNorthSlot
  split
  · exact .of_same ⟨rfl, rfl, rfl⟩
  · split
    · exact forwarded
    · unfold State.sendInserted
      split
      · exact .of_same ⟨rfl, rfl, rfl⟩
      · split
        · exact .of_same ⟨rfl, rfl, rfl⟩
        · exact forwarded

/-- The loop that a slot serves has its slot pending (R128). -/
theorem State.pending_of_loopToServe {s : State} {k : Fin Config.loopCount} (h : s.loopToServe = some k) :
    s.loops[k].pending = true := by
  unfold State.loopToServe at h
  split at h
  · next hfound =>
    cases h
    have held := (State.findLoop_eq_some.1 hfound).1
    simp only [Bool.and_eq_true] at held
    exact held.2
  · exact (State.findLoop_eq_some.1 h).1

theorem keepsLoops_serveLoop {s : State} {k : Fin Config.loopCount} (h : s.loops[k].pending = true) :
    KeepsLoops s (s.serveLoop k) := by
  have served : KeepsLoops s (s.updateLoop k Loop.served) := .updateLoop (Loop.kept_served _ h)
  exact served.congr (.refl s) ⟨rfl, rfl, rfl⟩

theorem keepsLoops_southSlot (s : State) : KeepsLoops s s.fillSouthSlot := by
  unfold State.fillSouthSlot
  split
  · exact .of_same ⟨rfl, rfl, rfl⟩
  · split
    · next hk =>
      have pending := State.pending_of_loopToServe hk
      unfold State.contended
      split
      · exact (keepsLoops_serveLoop (s := { s with lastWinner := .loops }) pending).from_same ⟨rfl, rfl, rfl⟩
      · exact .of_same ⟨rfl, rfl, rfl⟩
    · exact .of_same ⟨rfl, rfl, rfl⟩
    · next hk => exact keepsLoops_serveLoop (State.pending_of_loopToServe hk)
    · exact .of_same ⟨rfl, rfl, rfl⟩

theorem keepsLoops_deadline {s : State} {n : Fin Config.channelCount} (hd : s.channels[n].deadline.isSome) :
    KeepsLoops s (s.deadlineExpires n) := by
  refine (TableEffect.deadline n hd).keepsLoops fun k => ?_
  rcases s.deadlineExpires_loops n with h | h <;> rw [h]
  · exact .refl _ _
  · rw [mapTable_fin]
    split
    · exact Loop.kept_sourceStale _ _
    · exact .refl _ _

theorem keepsLoops_resend (s : State) (seq : Nat) : KeepsLoops s (s.resendExpires seq) := by
  unfold State.resendExpires
  split
  · split
    · exact (TableEffect.abandon seq).keepsLoops_of_same rfl
    · exact .of_same ⟨rfl, rfl, rfl⟩
  · exact .refl s
  · exact .refl s

theorem keepsLoops_takeStep (s : State) (k : Fin Config.loopCount) : KeepsLoops s (s.takeStep k) := by
  unfold State.takeStep
  dsimp only
  split
  · exact .updateLoop (Loop.kept_sourceStale _ _)
  · exact .updateLoop (Loop.kept_sourceStale _ _)
  · refine (TableEffect.stepLoop k _).keepsLoops fun j => ?_
    rw [State.stepLoop_loops]
    exact Loop.kept_set (Loop.kept_stepWith _ _ _) j

/-! ### Installs, REMOVE and resets -/

/-- The checks of a loop COMMIT that pass with ENABLE yes (R168). -/
theorem State.loopChecks_eq_none {s : State} {k : Fin Config.loopCount} {cfg : LoopConfig} (henable : cfg.enable = true)
    (h : s.loopChecks k cfg = none) :
    cfg.Enabled ∧ s.channels[cfg.source].valid = true
      ∧ ∀ j : Fin Config.loopCount, j ≠ k → s.loops[j].state ≠ .disabled → s.loops[j].cfg.actKey ≠ cfg.actKey := by
  unfold State.loopChecks at h
  split at h
  · contradiction
  · split at h
    · cases h
    · next hvalid =>
      split at h
      · cases h
      · next hnode =>
        split at h
        · cases h
        · next hduties =>
          obtain ⟨hstop, hstart⟩ := not_not.1 hduties
          refine ⟨⟨henable, hstop, hstart, not_not.1 hnode⟩, not_not.1 hvalid, fun j hj hlive hkey => ?_⟩
          have holder : s.actuatorHolder k cfg = none := Option.eq_none_iff_forall_ne_some.2 (by simpa using h)
          have free := State.findLoop_eq_none.1 holder j
          simp only [Bool.and_eq_false_iff, bne_eq_false_iff_eq, decide_eq_false_iff_not, beq_eq_false_iff_ne] at free
          rcases free with (h | h) | h
          · exact hj h
          · exact h hlive
          · exact h hkey

theorem Loop.reinstall_cfg (mode : Mode) (cfg : LoopConfig) (l : Loop) : (l.reinstall mode cfg).cfg = cfg := by
  unfold Loop.reinstall
  dsimp only
  split
  case h_3 => exact (Loop.moved_startStopTimer mode _).cfg
  all_goals rfl

theorem keepsLoops_installLoop {s : State} {k : Fin Config.loopCount} {cfg : LoopConfig} (h : s.loopChecks k cfg = none) :
    KeepsLoops s (s.installLoop k cfg) := by
  have withdrawn : ∀ t : State, KeepsLoops s t → KeepsLoops s (t.withdrawLoop k) :=
    fun t ht => ht.congr (.refl s) ⟨rfl, rfl, rfl⟩
  unfold State.installLoop
  split
  · next hdisable =>
    exact withdrawn _ (.updateLoop (.of_disabled rfl fun hl => hl.installDisabled (by simpa using hdisable)))
  · next henable =>
    obtain ⟨hcfg, hvalid, hfree⟩ := State.loopChecks_eq_none (not_not.1 henable) h
    have enabled : ∀ f : Loop → Loop, (f s.loops[k]).cfg = cfg →
        (s.loops[k].Sound s.settings.mode → (f s.loops[k]).Sound s.settings.mode) → KeepsLoops s (s.updateLoop k f) :=
      fun f hf hsound => .installed k _ (by simpa only [hf] using hvalid) (by simpa only [hf] using hfree) hsound rfl rfl rfl
    split
    · exact withdrawn _ (enabled _ (by unfold Loop.freshInstall; split <;> rfl)
        fun _ => Loop.sound_freshInstall hcfg _ _)
    · next hold =>
      have hlive : s.loops[k].state ≠ .disabled := fun hd => hold (by rw [Loop.freshens, hd]; rfl)
      exact enabled _ (Loop.reinstall_cfg ..) fun hl => hl.reinstall hlive hcfg

/-- An install into an entry leaves it valid, and the others as they were (R170, R171). -/
theorem keepsLoops_installChannel (s : State) (n : Fin Config.channelCount) (cfg : ChannelConfig) :
    KeepsLoops s (s.installChannel n cfg) := by
  obtain ⟨e, q, pin, hkind, -, hinstall⟩ := s.installChannel_spec n cfg
  have hvalid : e.valid = true := by
    rcases hkind with ⟨hv, rfl⟩ | rfl
    · exact hv
    · rfl
  rw [hinstall]
  refine .kept (fun m hm => .inl ?_) fun _ => .refl _ _
  dsimp only
  rw [getElem_set_table]
  split
  · exact hvalid
  · exact hm

theorem keepsLoops_endScan (s : State) (c : Cell) : KeepsLoops s (s.endScan c) := by
  have ended : ∀ (t : State) (reply : Reply), t.SameControls (({ t with agent := .idle } : State).complete c reply) :=
    fun t reply => (⟨rfl, rfl, rfl⟩ : t.SameControls { t with agent := .idle }).trans
      (State.sameControls_of_content (State.content_complete ..))
  unfold State.endScan
  split
  · exact .of_same (ended s _)
  · next target _ =>
    refine KeepsLoops.congr (s := s) (t := (s.judge target).state) ?_ (.refl s) (ended _ _)
    unfold State.judge
    split
    · split
      · exact .refl s
      · exact keepsLoops_installChannel s _ _
    · split
      · exact .refl s
      · next hc => exact keepsLoops_installLoop hc

/-- REMOVE of an entry that no loop outside DISABLED has as its SOURCE (R175). -/
theorem keepsLoops_removeEntry (s : State) (n : Fin Config.channelCount) : KeepsLoops s (s.removeEntry n).state := by
  unfold State.removeEntry
  split
  · exact .refl s
  · next hfree =>
    refine .kept (fun m hm => ?_) fun _ => .refl _ _
    by_cases hmn : m = n
    · refine .inr fun k hlive hsource => ?_
      have free := State.findLoop_eq_none.1 hfree k
      simp only [Bool.and_eq_false_iff, decide_eq_false_iff_not, beq_eq_false_iff_ne] at free
      rcases free with h | h
      · exact h hlive
      · exact h (hsource.trans hmn)
    · refine .inl ?_
      show (s.channels.set n s.channels[n].remove)[m].valid = true
      rw [getElem_set_table, if_neg hmn]
      exact hm

theorem keepsLoops_removeRule (s : State) (r : Request) : KeepsLoops s (s.removeRule r).state := by
  unfold State.removeRule
  split
  · split
    · exact keepsLoops_removeEntry s _
    · exact .refl s
  · split
    · next k _ =>
      have removed : KeepsLoops s (s.updateLoop k Loop.remove) := .updateLoop (.of_disabled rfl fun h => h.remove)
      exact removed.congr (.refl s) ⟨rfl, rfl, rfl⟩
    · exact .refl s
  all_goals exact .refl s

/-- A switch of the conditioner mode touches timers only (R11, R25, R97). -/
theorem keepsLoops_withSettings (s : State) (p : Settings) : KeepsLoops s (s.withSettings p) := by
  have valid : ∀ f : Channel → Channel, (∀ e, (f e).valid = e.valid) → ∀ n : Fin Config.channelCount,
      s.channels[n].valid = true → (mapTable f s.channels)[n].valid = true := fun f hf n hv => by
    rw [mapTable_fin, hf]
    exact hv
  unfold State.withSettings
  split
  · next hsame => exact .kept (fun _ hv => .inl hv) fun k => by rw [hsame]; exact .refl _ _
  · next hchange =>
    cases hp : p.mode with
    | pass =>
      refine .kept (fun n hv => .inl (valid _ (fun e => (Channel.moved_toPass .pass e).valid) n hv)) fun k => ?_
      rw [hp]
      show Loop.Kept _ _ _ (mapTable Loop.toPass s.loops)[k]
      rw [mapTable_fin]
      exact .of_moved (Loop.moved_toPass _) id fun h => h.toPass
    | active =>
      have hpass : s.settings.mode = .pass := by
        cases hm : s.settings.mode
        · rfl
        · exact absurd (hp.trans hm.symm) hchange
      refine .kept (fun n hv => .inl (valid _ (fun e => (Channel.moved_toActive e).valid) n hv)) fun k => ?_
      rw [hp, hpass]
      show Loop.Kept _ _ _ (mapTable Loop.toActive s.loops)[k]
      rw [mapTable_fin]
      exact .of_moved (Loop.moved_toActive _) (fun hd => by simp only [Loop.toActive, hd]) fun h => h.toActive

theorem keepsLoops_setPartRule (s : State) (r : Request) : KeepsLoops s (s.setPartRule r).state := by
  unfold State.setPartRule
  split
  · split
    · exact .refl s
    · exact .refl s
    · exact .refl s
    · exact keepsLoops_withSettings s _
  all_goals exact .refl s

theorem keepsLoops_warmReset (s : State) : KeepsLoops s s.warmReset := by
  refine .kept (fun n hv => .inl ?_) fun k => ?_
  · rw [s.warmReset_channels, mapTable_fin, (Channel.moved_warmReset s.settings.mode _).valid]
    exact hv
  · rw [s.warmReset_loops, mapTable_fin, s.warmReset_settings]
    exact .of_moved (Loop.moved_warmReset _) (fun hd => by simp only [Loop.warmReset, hd]) fun h => h.warmReset

theorem keepsLoops_coldCondition (s : State) : KeepsLoops s s.coldCondition := by
  have cold : ∀ k : Fin Config.loopCount, s.coldCondition.loops[k] = .coldReset := fun k => by
    simp [State.coldCondition, State.reset]
  refine .kept (fun n _ => .inr fun k hlive => ?_) fun k => ?_
  · rw [cold] at hlive
    exact absurd rfl hlive
  · rw [cold]
    exact .of_disabled rfl fun _ => Loop.sound_coldReset

theorem keepsLoops_coldReset (edge : ColdEdge) {s t : State} (h : execColdReset edge s = .next t) : KeepsLoops s t := by
  have cold : ∀ t : State, s.coldCondition.SameControls t → KeepsLoops s t :=
    fun t ht => (keepsLoops_coldCondition s).congr (.refl s) ht
  unfold execColdReset at h
  cases edge with
  | resetFalls | powerUpBegins =>
    cases h
    exact cold _ ⟨rfl, rfl, rfl⟩
  | resetRises | powerUpEnds =>
    cases h
    split
    · exact cold _ ⟨rfl, rfl, rfl⟩
    · exact .refl s

theorem keepsLoops_restartEdge (edge : RestartEdge) {s t : State} (h : execWarmReset edge s = .next t) : KeepsLoops s t := by
  have warm : KeepsLoops s ({ s with restartLow := true } : State).warmReset :=
    (keepsLoops_warmReset _).from_same ⟨rfl, rfl, rfl⟩
  unfold execWarmReset at h
  cases edge with
  | rises =>
    cases h
    exact .of_same ⟨rfl, rfl, rfl⟩
  | falls heldLowNs =>
    cases h
    split
    · exact .refl s
    · split
      · exact .of_same ⟨rfl, rfl, rfl⟩
      · unfold State.restartFalls
        dsimp only
        split
        · exact warm
        · split
          · exact warm.congr (.refl s) ⟨rfl, rfl, rfl⟩
          · exact .of_same ⟨rfl, rfl, rfl⟩

/-! ### The takings of the Agent -/

theorem KeepsLoops.takeRequest {row : RequestRow} {execute : State → Cell → Request → State}
    (h : ∀ b c r, KeepsLoops b (execute b c r)) (s : State) : KeepsLoops s (s.takeRequest row execute) := by
  rcases s.takeRequest_cases row execute with ht | ⟨c, rest, -, -, -, -, ht⟩ <;> rw [ht]
  · exact .refl s
  · exact (h _ c _).from_same ⟨rfl, rfl, rfl⟩

theorem State.sameControls_complete (s : State) (c : Cell) (reply : Reply) : s.SameControls (s.complete c reply) :=
  State.sameControls_of_content (s.content_complete c reply)

theorem State.sameControls_resolveProposal (s : State) : s.SameControls s.resolveProposal :=
  State.sameControls_of_content s.content_resolveProposal

theorem KeepsLoops.takeAndServe {row : RequestRow} {g : Gates} {rule : State → Request → Answer}
    (h : ∀ b r, KeepsLoops b (rule b r).state) (s : State) : KeepsLoops s (s.takeAndServe row g rule) := by
  refine .takeRequest (fun b c r => ?_) s
  have resolved : b.resolveProposal.SameControls b := State.sameControls_of_content b.content_resolveProposal.symm
  unfold State.serve
  dsimp only
  split
  · exact (KeepsLoops.refl _).congr resolved (State.sameControls_complete ..)
  · exact (h _ r).congr resolved (State.sameControls_complete ..)

/-- MANUAL drives a loop out of DISABLED, and releases a loop in MANUAL (R91, R92, R148). -/
theorem keepsLoops_manualRule (s : State) (r : Request) : KeepsLoops s (s.manualRule r).state := by
  unfold State.manualRule
  split
  · split
    · next k _ =>
      split
      · next hvalue =>
        have drive : s.loops[k].state ≠ .disabled → r.value ≠ -1 →
            KeepsLoops s (s.updateLoop k (Loop.enterManual r.value.toNat)) := fun hlive hv =>
          .updateLoop ⟨fun _ => ⟨hlive, rfl, rfl⟩, fun hl => hl.enterManual hlive (by omega)⟩
        unfold State.manualLoop State.manualDone
        split
        · exact .refl s
        · next hstate =>
          split
          · have moved := s.loops[k].moved_release s.settings.mode s.channels[s.loops[k].cfg.source].dyn.state
            exact .updateLoop ⟨fun _ => ⟨ne_of_eq_of_ne hstate nofun, by rw [moved.cfg], by rw [moved.cfg]⟩,
              fun hl => hl.release hstate _⟩
          · next hv => exact drive (ne_of_eq_of_ne hstate nofun) hv
        all_goals
          next hstate =>
          split
          · exact .refl s
          · next hv => exact drive (ne_of_eq_of_ne hstate nofun) hv
      · exact .refl s
    · exact .refl s
  all_goals exact .refl s

theorem keepsLoops_ack (s : State) (r : Request) : KeepsLoops s (s.ack r).state := by
  unfold State.ack
  split
  · unfold State.ackSeq
    split
    · exact .refl s
    · dsimp only
      split
      · next n hn =>
        have trip := (State.findChannel_eq_some.1 hn).1
        exact (TableEffect.ackRecord _ n (by simpa using trip)).keepsLoops_of_same (State.acknowledge_loops ..)
      · exact .of_same ⟨rfl, rfl, rfl⟩
  · split
    · next n _ =>
      have acknowledged : ((s.removeTripRecord n).acknowledge n).loops = s.loops :=
        (State.acknowledge_loops ..).trans (s.removeTripRecord_loops n)
      unfold State.ackEntry
      split
      · next h => exact (TableEffect.ackEntry n (.inl h)).keepsLoops_of_same acknowledged
      · next h => exact (TableEffect.ackEntry n (.inr h)).keepsLoops_of_same acknowledged
      all_goals exact .refl s
    · exact .refl s
  all_goals exact .refl s

theorem State.sameControls_openPhase1Rule (s : State) (r : Request) : s.SameControls (s.openPhase1Rule r).state := by
  unfold State.openPhase1Rule
  split
  · split <;> exact ⟨rfl, rfl, rfl⟩
  · exact ⟨rfl, rfl, rfl⟩

theorem State.sameControls_takePhase2 (s : State) (c : Cell) (r : Request) : s.SameControls (s.takePhase2 c r) := by
  unfold State.takePhase2
  split
  · exact State.sameControls_of_content (State.content_complete s.openSession c _)
  · exact s.sameControls_resolveProposal.trans (State.sameControls_complete ..)

theorem State.sameControls_takeClose (s : State) (c : Cell) (r : Request) : s.SameControls (s.takeClose c r) := by
  unfold State.takeClose
  split
  · exact (⟨rfl, rfl, rfl⟩ : s.SameControls s.closeSession).trans (State.sameControls_complete ..)
  · exact (⟨rfl, rfl, rfl⟩ : s.SameControls s.dropProposal).trans (State.sameControls_complete ..)
  · exact s.sameControls_complete c _

theorem State.sameControls_takeCommit (s : State) (c : Cell) (r : Request) : s.SameControls (s.takeCommit c r) := by
  unfold State.takeCommit
  dsimp only
  split
  · exact s.sameControls_resolveProposal.trans (State.sameControls_complete ..)
  · split
    · exact s.sameControls_resolveProposal.trans (State.sameControls_complete ..)
    · exact s.sameControls_resolveProposal.trans ⟨rfl, rfl, rfl⟩

theorem State.sameControls_editLoadRule (s : State) (r : Request) : s.SameControls (s.editLoadRule r).state := by
  unfold State.editLoadRule
  split
  · split <;> exact ⟨rfl, rfl, rfl⟩
  · split <;> exact ⟨rfl, rfl, rfl⟩
  all_goals exact .refl s

theorem State.sameControls_editSetRule (s : State) (r : Request) : s.SameControls (s.editSetRule r).state := by
  have written : ∀ {α : Type} (load : α → EditBuffer) w, s.SameControls (s.editWritten r.value load w).state :=
    fun load w => by
      rcases s.editWritten_cases r.value load w with h | ⟨cfg, -, h⟩ <;> rw [h] <;> exact ⟨rfl, rfl, rfl⟩
  unfold State.editSetRule
  split
  · exact written _ _
  · exact written _ _
  all_goals exact .refl s

theorem State.sameControls_clearRule (s : State) (r : Request) : s.SameControls (s.clearRule r).state := by
  unfold State.clearRule
  split <;> exact ⟨rfl, rfl, rfl⟩

/-! ### Every command and every step -/

theorem KeepsLoops.happening {s t : State} {effect : State → State} (h : happening s effect = .next t)
    (he : KeepsLoops s (effect s)) : KeepsLoops s t := by
  rcases happening_cases h with ⟨-, rfl⟩ | ⟨-, rfl⟩
  · exact .refl _
  · exact he

theorem KeepsLoops.expiry {s t : State} {due : State → Bool} {effect : State → State} (h : expiry s due effect = .next t)
    (he : due s = true → KeepsLoops s (effect s)) : KeepsLoops s t := by
  rcases expiry_cases h with rfl | ⟨hd, rfl⟩
  · exact .refl _
  · exact he hd

theorem exec_keepsLoops {i : Instr} {s t : State} (h : exec i s = .next t) : KeepsLoops s t := by
  have running : ∀ {timer : Option Nat}, reached timer = true → timer.isSome :=
    fun hd => Option.isSome_iff_exists.2 ⟨0, (reached_iff _).1 hd⟩
  unfold exec at h
  cases i with
  | coldReset edge => exact keepsLoops_coldReset edge h
  | warmReset edge => exact keepsLoops_restartEdge edge h
  | arrival p a => exact .happening h (keepsLoops_arrival s p a)
  | northSlot => exact .happening h (keepsLoops_northSlot s)
  | southSlot => exact .happening h (keepsLoops_southSlot s)
  | deadlineExpiry n => exact .expiry h fun hd => keepsLoops_deadline (running hd)
  | forwardRefreshExpiry n =>
    exact .expiry h fun hd => (TableEffect.forwardRefresh n 0 (by simpa using hd)).keepsLoops_of_same rfl
  | resendTimerExpiry seq => exact .happening h (keepsLoops_resend s seq)
  | step k => exact .expiry h fun _ => keepsLoops_takeStep s k
  | stopTimerExpiry k => exact .expiry h fun _ => .updateLoop (Loop.kept_stopExpired _ _)
  | refreshTimerExpiry k => exact .expiry h fun hd => .updateLoop (Loop.kept_refreshExpired _ (running hd))
  | proposalTimerExpiry | sessionTimerExpiry => exact .expiry h fun _ => .of_same ⟨rfl, rfl, rfl⟩
  | read | unknownRequest => exact .happening h (.takeAndServe (fun b _ => .refl b) s)
  | openPhase1 => exact .happening h (.takeAndServe (fun b r => .of_same (b.sameControls_openPhase1Rule r)) s)
  | openPhase2 => exact .happening h (.takeRequest (fun b c r => .of_same (b.sameControls_takePhase2 c r)) s)
  | close => exact .happening h (.takeRequest (fun b c r => .of_same (b.sameControls_takeClose c r)) s)
  | editLoad => exact .happening h (.takeAndServe (fun b r => .of_same (b.sameControls_editLoadRule r)) s)
  | editSet => exact .happening h (.takeAndServe (fun b r => .of_same (b.sameControls_editSetRule r)) s)
  | commit => exact .happening h (.takeRequest (fun b c r => .of_same (b.sameControls_takeCommit c r)) s)
  | endOfScan =>
    refine .happening h ?_
    split
    · exact keepsLoops_endScan s _
    · exact .refl s
  | removeChannel | removeLoop => exact .happening h (.takeAndServe keepsLoops_removeRule s)
  | setPart => exact .happening h (.takeAndServe keepsLoops_setPartRule s)
  | ackAlarm | ackChannel => exact .happening h (.takeAndServe keepsLoops_ack s)
  | manual | manualRelease => exact .happening h (.takeAndServe keepsLoops_manualRule s)
  | clearMiss | clearPart => exact .happening h (.takeAndServe (fun b r => .of_same (b.sameControls_clearRule r)) s)
  | restart => exact .happening h (.takeAndServe (fun b _ => keepsLoops_warmReset b) s)
  | freeze => exact .happening h (.takeAndServe (fun _ _ => .of_same ⟨rfl, rfl, rfl⟩) s)

theorem keepsLoops_countBoundary (s : State) : KeepsLoops s s.countBoundary := by
  refine .kept (fun n hv => .inl ?_) fun k => ?_
  · rw [s.countBoundary_channels, mapTable_fin]
    exact hv
  · rw [s.countBoundary_loops, mapTable_fin]
    exact .of_moved (Loop.moved_count _) id fun h => h.count

theorem step_keepsLoops {s t : State} (h : step s = .next t) : KeepsLoops s t := by
  unfold step at h
  split at h
  · exact (exec_keepsLoops h).from_same ⟨rfl, rfl, rfl⟩
  · cases h
    unfold State.idle
    split
    · exact .refl s
    · split
      · exact .of_same ⟨rfl, rfl, rfl⟩
      · exact (keepsLoops_countBoundary s).congr (.refl s) ⟨rfl, rfl, rfl⟩

/-- Settles O57: every step keeps each loop in its laws, or installs a record under which they hold afresh. -/
theorem stepKeepsLoopsSound : Obligations.StepKeepsLoopsSound :=
  fun _ _ hs h => (step_keepsLoops h).loopsSound hs

/-- Settles O58: only an install brings a loop out of DISABLED or binds it anew, and its checks look for the key and the source. -/
theorem stepKeepsActuatorsDistinct : Obligations.StepKeepsActuatorsDistinct :=
  fun _ _ hs h => (step_keepsLoops h).actuatorsDistinct hs

end Sys2Proof.Machine

/-! ## O26 to O29: the demand and the timers of a loop -/

namespace Sys2Proof.Machine

/-! ### The demand (R80) -/

theorem LoopConfig.demand_eq_up_iff (cfg : LoopConfig) (last : Int) :
    cfg.demand last = .up ↔ (cfg.tolerance : Int) < cfg.error last := by
  unfold LoopConfig.demand
  split
  · next h => simp only [true_iff]; exact h
  · split <;> simp <;> omega

theorem LoopConfig.demand_eq_down_iff (cfg : LoopConfig) (last : Int) :
    cfg.demand last = .down ↔ cfg.error last < -(cfg.tolerance : Int) := by
  unfold LoopConfig.demand
  split
  · simp; omega
  · split
    · next h => simp only [true_iff]; exact h
    · simp; omega

/-- Settles O26: the two comparisons of R80 are made one after the other, and exclude each other. -/
theorem demandComparesErrorWithTolerance : Obligations.DemandComparesErrorWithTolerance := by
  intro cfg last
  change (cfg.demand last = .up ↔ (cfg.tolerance : Int) < cfg.error last)
    ∧ (cfg.demand last = .down ↔ cfg.error last < -(cfg.tolerance : Int))
    ∧ (cfg.demand last = .hold ↔ -(cfg.tolerance : Int) ≤ cfg.error last ∧ cfg.error last ≤ cfg.tolerance)
  have up := cfg.demand_eq_up_iff last
  have down := cfg.demand_eq_down_iff last
  refine ⟨up, down, ?_⟩
  cases hd : cfg.demand last with
  | up =>
    have := up.1 hd
    simp; omega
  | down =>
    have := down.1 hd
    simp; omega
  | hold =>
    simp only [hd, reduceCtorEq, false_iff] at up down
    simp; omega

/-! ### The settings of a timer -/

theorem State.paced_eq (s : State) (ticks : Nat) : s.paced ticks = startInActive s.settings.mode ticks := by
  unfold State.paced startInActive
  cases s.settings.mode <;> rfl

theorem startUnlessZero_eq_orStopped (ticks : Nat) : startUnlessZero ticks = orStopped ticks := by
  rcases Nat.eq_zero_or_pos ticks with rfl | h
  · rfl
  · rw [startUnlessZero, orStopped, if_pos h, if_neg (Nat.ne_of_gt h)]

/-! ### The stop timer and the refresh timer (R87, R94) -/

section
variable {s : State} {k : Fin Config.loopCount}

theorem exec_stopTimerExpiry (h : s.coldHeld = false) (hdue : s.loops[k].stopTimer = some 0) :
    exec (.stopTimerExpiry k) s = .next (s.updateLoop k Loop.stopExpired) := by
  show expiry s (fun s => reached s.loops[k].stopTimer) (fun s => s.updateLoop k Loop.stopExpired) = _
  exact expiry_of_due h ((reached_iff _).2 hdue) _

theorem exec_stopTimerExpiry_of_not_due (hdue : s.loops[k].stopTimer ≠ some 0) : exec (.stopTimerExpiry k) s = .next s := by
  show expiry s (fun s => reached s.loops[k].stopTimer) (fun s => s.updateLoop k Loop.stopExpired) = _
  exact expiry_of_not_due ((reached_eq_false_iff _).2 hdue) _

theorem exec_refreshTimerExpiry (h : s.coldHeld = false) (hdue : s.loops[k].refreshTimer = some 0) :
    exec (.refreshTimerExpiry k) s = .next (s.updateLoop k Loop.refreshExpired) := by
  show expiry s (fun s => reached s.loops[k].refreshTimer) (fun s => s.updateLoop k Loop.refreshExpired) = _
  exact expiry_of_due h ((reached_iff _).2 hdue) _

theorem exec_refreshTimerExpiry_of_not_due (hdue : s.loops[k].refreshTimer ≠ some 0) :
    exec (.refreshTimerExpiry k) s = .next s := by
  show expiry s (fun s => reached s.loops[k].refreshTimer) (fun s => s.updateLoop k Loop.refreshExpired) = _
  exact expiry_of_not_due ((reached_eq_false_iff _).2 hdue) _

end

/-- Settles O29: each expiry acts on one loop, exactly when the timer stands at its count. -/
theorem stopAndRefreshTimersExpire : Obligations.StopAndRefreshTimersExpire := by
  intro s k hrunning
  refine ⟨fun hdue hstate => ?_, fun hdue => ?_, fun hdue => ?_, fun hdue => ?_⟩
  · rw [exec_stopTimerExpiry hrunning hdue, State.updateLoop, Loop.stopExpired_of_stopWait hstate]
    rfl
  · exact exec_stopTimerExpiry_of_not_due hdue
  · rw [exec_refreshTimerExpiry hrunning hdue, State.updateLoop, Loop.refreshExpired, Loop.startRefresh,
      startUnlessZero_eq_orStopped]
  · exact exec_refreshTimerExpiry_of_not_due hdue

/-! ### The step timer (R81) -/

section
variable {s : State} {k : Fin Config.loopCount}

theorem exec_step (h : s.coldHeld = false) (hdue : s.loops[k].stepTimer = some 0) :
    exec (.step k) s = .next (s.takeStep k) := by
  show expiry s (fun s => reached s.loops[k].stepTimer) (fun s => s.takeStep k) = _
  exact expiry_of_due h ((reached_iff _).2 hdue) _

theorem exec_step_of_not_due (hdue : s.loops[k].stepTimer ≠ some 0) : exec (.step k) s = .next s := by
  show expiry s (fun s => reached s.loops[k].stepTimer) (fun s => s.takeStep k) = _
  exact expiry_of_not_due ((reached_eq_false_iff _).2 hdue) _

theorem State.takeStep_of_silent (h : s.channels[s.loops[k].cfg.source].dyn.state = .stale
      ∨ s.channels[s.loops[k].cfg.source].dyn.last = none) :
    s.takeStep k = s.updateLoop k Loop.sourceStale := by
  unfold State.takeStep
  dsimp only
  split
  · rfl
  · rfl
  · next hlast hlive =>
    rcases h with h | h
    · exact absurd h hlive
    · rw [h] at hlast
      cases hlast

theorem State.takeStep_of_live {last : Int} (hlive : s.channels[s.loops[k].cfg.source].dyn.state ≠ .stale)
    (hlast : s.channels[s.loops[k].cfg.source].dyn.last = some last) :
    s.takeStep k = s.stepLoop k (s.loops[k].cfg.demand last) := by
  unfold State.takeStep
  dsimp only
  split
  · contradiction
  · next hnone _ =>
    rw [hlast] at hnone
    cases hnone
  · next hlast' _ =>
    rw [hlast] at hlast'
    cases hlast'
    rfl

/-- A step that raises no alarm changes its loop alone. -/
theorem State.stepLoop_quiet {d : Demand} {l : Loop} (h : s.loops[k].stepWith s.settings.mode d = (l, false)) :
    s.stepLoop k d = { s with loops := s.loops.set k l } := by
  unfold State.stepLoop
  rw [h]
  rfl

/-- A step that raises LOOP_LIMIT (R85). -/
theorem State.stepLoop_loud {d : Demand} {l : Loop} (h : s.loops[k].stepWith s.settings.mode d = (l, true)) :
    s.stepLoop k d = ({ s with loops := s.loops.set k l } : State).raise (loopLimitAlarm k l.drive) := by
  unfold State.stepLoop
  rw [h]
  rfl

end

theorem stepWithSilentSourceHolds : Clause.StepWithSilentSourceHolds := by
  intro s k hrunning
  refine ⟨fun hdue hsource hauto => ?_, fun hdue => ?_⟩
  · rw [exec_step hrunning hdue, State.takeStep_of_silent hsource, State.updateLoop, Loop.sourceStale_eq, if_pos hauto]
  · exact exec_step_of_not_due hdue

/-- In STOPPED, and in STOP_WAIT, DOWN and HOLD start the next step only (R82, R86). -/
theorem Loop.stepStopped_of_not_up (mode : Mode) {d : Demand} (hd : d ≠ .up) (l : Loop) :
    l.stepStopped mode d = l.nextStepUp mode := by
  cases d with
  | up => contradiction
  | down | hold => rfl

theorem Loop.stepStopWait_of_not_up (mode : Mode) {d : Demand} (hd : d ≠ .up) (l : Loop) :
    l.stepStopWait mode d = l.nextStepDown mode := by
  cases d with
  | up => contradiction
  | down | hold => rfl

theorem stepInStoppedAndStopWait : Clause.StepInStoppedAndStopWait := by
  intro s k last hrunning l hdue hlive hlast after raised
  have stepped : ∀ l' : Loop, s.loops[k].stepWith s.settings.mode (l.cfg.demand last) = (l', false) →
      exec (.step k) s = after l' := fun l' h => by
    rw [exec_step hrunning hdue, State.takeStep_of_live hlive hlast, State.stepLoop_quiet h]
  simp only [s.paced_eq]
  refine ⟨fun hstate hd => stepped _ ?_, fun hstate hd => stepped _ ?_, fun hstate hd => stepped _ ?_,
    fun hstate hd => stepped _ ?_⟩
  · rw [Loop.stepWith_stopped hstate, hd]
    rfl
  · rw [Loop.stepWith_stopped hstate, Loop.stepStopped_of_not_up _ hd]
    rfl
  · rw [Loop.stepWith_stopWait hstate, hd]
    rfl
  · rw [Loop.stepWith_stopWait hstate, Loop.stepStopWait_of_not_up _ hd]
    rfl

/-- Settles O27: a step looks at its source first; a silent one holds the loop, and otherwise the STATE and the demand decide. -/
theorem stepOutsideRunning : Obligations.StepOutsideRunning :=
  ⟨stepWithSilentSourceHolds, stepInStoppedAndStopWait⟩

/-! ### Regulation (R83 to R85) -/

section
variable {l : Loop}

theorem Loop.refusedRaise_below (h : l.satCount + 1 < l.cfg.satLimit) :
    l.refusedRaise = ({ l with satCount := l.satCount + 1 }, false) := by
  unfold Loop.refusedRaise
  rw [if_pos (by omega)]
  simp [Nat.ne_of_lt h]

theorem Loop.refusedRaise_reaches (h : l.satCount + 1 = l.cfg.satLimit) :
    l.refusedRaise = ({ l with satCount := l.cfg.satLimit }, true) := by
  unfold Loop.refusedRaise
  rw [if_pos (by omega)]
  simp [h]

theorem Loop.refusedRaise_at (h : l.satCount = l.cfg.satLimit) : l.refusedRaise = (l, false) := by
  unfold Loop.refusedRaise
  rw [if_neg (by omega), if_pos h]

theorem Loop.refusedRaise_above (h : l.cfg.satLimit < l.satCount) :
    l.refusedRaise = ({ l with satCount := l.cfg.satLimit }, true) := by
  unfold Loop.refusedRaise
  rw [if_neg (by omega), if_neg (by omega)]

end

/-- Settles O28: a step in RUNNING or STARTING is one of the outcomes of R84, and a refused raise one of those of R85. -/
theorem stepInRunningRegulates : Obligations.StepInRunningRegulates := by
  intro s k last hrunning l hdue hlive hlast hstate after moved refused limit
  have taken : exec (.step k) s = .next (s.stepLoop k (l.cfg.demand last)) := by
    rw [exec_step hrunning hdue, State.takeStep_of_live hlive hlast]
  have outcome : ∀ {d out}, l.cfg.demand last = d → Loop.stepRunning s.settings.mode d { l with state := .running } = out →
      l.stepWith s.settings.mode (l.cfg.demand last) = out := fun hd hout => by
    rw [hd, Loop.stepWith_regulates hstate, hout]
  have quiet : ∀ {d l'}, l.cfg.demand last = d →
      Loop.stepRunning s.settings.mode d { l with state := .running } = (l', false) →
      exec (.step k) s = .next (after l') := fun hd h => by
    rw [taken, State.stepLoop_quiet (outcome hd h)]
  have loud : ∀ {d l'}, l.cfg.demand last = d →
      Loop.stepRunning s.settings.mode d { l with state := .running } = (l', true) →
      exec (.step k) s = .next ((after l').raise (loopLimitAlarm k l'.drive)) := fun hd h => by
    rw [taken, State.stepLoop_loud (outcome hd h)]
  have unchanged : (l.pending || decide (l.drive ≠ l.drive)) = l.pending := by simp
  simp only [refused, s.paced_eq]
  refine ⟨fun hd hlt => quiet hd (Loop.stepRunning_raise hlt), fun hd hge => ?_,
    fun hd hlt => quiet hd (Loop.stepRunning_lower hlt), fun hd hle hpos => ?_,
    fun hd hle hzero => quiet hd (Loop.stepRunning_stop hle hzero), fun hd => ?_⟩
  · have refuse := Loop.stepRunning_refuse (mode := s.settings.mode) hge
    refine ⟨fun h => ?_, fun h => ?_, fun h => ?_, fun h => ?_⟩
    · rw [Loop.refusedRaise_below h] at refuse
      exact quiet hd refuse
    · rw [Loop.refusedRaise_reaches h] at refuse
      exact loud hd refuse
    · rw [Loop.refusedRaise_at h] at refuse
      exact quiet hd refuse
    · rw [Loop.refusedRaise_above h] at refuse
      exact loud hd refuse
  · simp only [moved, unchanged]
    exact quiet hd (Loop.stepRunning_wait hle hpos)
  · simp only [moved, unchanged]
    exact quiet hd rfl

end Sys2Proof.Machine

/-! ## O30: the source events -/

namespace Sys2Proof.Machine

theorem LoopState.automatic_iff (st : LoopState) :
    st.automatic = true ↔ st = .stopped ∨ st = .starting ∨ st = .running ∨ st = .stopWait := by
  cases st <;> simp [LoopState.automatic]

/-- A source-sample event resumes a loop in HELD (R90). -/
theorem Loop.sourceSample_eq (mode : Mode) (l : Loop) : l.sourceSample mode = if l.state = .held then l.resume mode else l := by
  unfold Loop.sourceSample
  split <;> simp_all

/-- The resume from HELD, at the DRIVE that FAILSAFE_DUTY allows (R90). -/
theorem Loop.resume_eq (mode : Mode) (l : Loop) (drive : Nat)
    (hdrive : drive = if l.cfg.stopDuty ≤ l.cfg.failsafeDuty then min l.cfg.failsafeDuty l.cfg.maxDuty else 0) :
    l.resume mode =
      { l with state := if l.cfg.stopDuty ≤ l.cfg.failsafeDuty then .running else .stopped
               drive := drive, pending := l.pending || decide (l.drive ≠ drive), satCount := 0
               stepTimer := startInActive mode l.cfg.downInterval } := by
  subst hdrive
  unfold Loop.resume
  split <;> rfl

/-- Settles O30: each event acts on every loop by its own SOURCE and STATE, and on nothing else. -/
theorem sourceEventsHoldAndResume : Obligations.SourceEventsHoldAndResume := by
  intro s n k l drive
  refine ⟨?_, ?_, rfl, rfl⟩
  · rw [State.sourceStaleEvent, State.mapLoops_loops, mapTable_fin]
    simp only [Loop.sourceStale_eq, LoopState.automatic_iff, ite_and]
    rfl
  · rw [State.sourceSampleEvent, State.mapLoops_loops, mapTable_fin, s.paced_eq]
    simp only [Loop.sourceSample_eq, ite_and]
    rw [Loop.resume_eq s.settings.mode s.loops[k] drive rfl]

end Sys2Proof.Machine

/-! ## O31: MANUAL -/

namespace Sys2Proof.Machine

/-! ### The taking of a MANUAL (R138, R148) -/

theorem Gates.session_passed {s : State} (h : s.session = .opened) : Gates.session.refusal s = none := by
  simp [Gates.refusal, Gates.session, h]

/-- The part as the rule of a request in an OPEN session finds it: the request taken and a place reserved for its response (R138). -/
def State.taken (s : State) (rest : List Cell) : State := ({ s with requests := rest } : State).reserving

/-- A MANUAL that is taken in an OPEN session is served by its rule, and gives the reserved place back (R139). -/
theorem State.takeAndServe_manual {s : State} {c : Cell} {rest : List Cell} {row : RequestRow} (h : s.CanTake c rest)
    (hopen : s.session = .opened) (hr : row.takes (Request.ofCell c) = true) {t : State} {reply : Reply}
    (hrule : (s.taken rest).manualRule (Request.ofCell c)
      = { state := t.reserving, reply := reply }) :
    s.takeAndServe row .session State.manualRule = t.answered c reply := by
  have past : ({ s with requests := rest, reserved := s.reserved + 1 } : State).pastGateOne
      = s.taken rest := State.pastGateOne_of_opened hopen
  rw [State.takeAndServe, State.takeRequest_of_canTake h hr, State.serve_of_passed (past ▸ Gates.session_passed hopen), past,
    hrule, State.complete_reserving]

section
variable {s t : State} {c : Cell} {rest : List Cell} {reply : Reply}

/-- The row of a MANUAL is chosen by its VALUE (R148). -/
theorem exec_manual (h : s.CanTake c rest) (hopen : s.session = .opened) (hop : c.op = 10) (hv : c.value ≠ -1)
    (hrule : (s.taken rest).manualRule (Request.ofCell c)
      = { state := t.reserving, reply := reply }) : exec .manual s = .next (t.answered c reply) := by
  have takes : RequestRow.manual.takes (Request.ofCell c) = true := by
    simp [RequestRow.takes, Request.ofCell, hop, hv]
  have ran : exec .manual s = .next (s.takeAndServe .manual .session State.manualRule) :=
    happening_of_running h.1 (fun s => s.takeAndServe .manual .session State.manualRule)
  rw [ran, State.takeAndServe_manual h hopen takes hrule]

theorem exec_manualRelease (h : s.CanTake c rest) (hopen : s.session = .opened) (hop : c.op = 10) (hv : c.value = -1)
    (hrule : (s.taken rest).manualRule (Request.ofCell c)
      = { state := t.reserving, reply := reply }) : exec .manualRelease s = .next (t.answered c reply) := by
  have takes : RequestRow.manualRelease.takes (Request.ofCell c) = true := by
    simp [RequestRow.takes, Request.ofCell, hop, hv]
  have ran : exec .manualRelease s = .next (s.takeAndServe .manualRelease .session State.manualRule) :=
    happening_of_running h.1 (fun s => s.takeAndServe .manualRelease .session State.manualRule)
  rw [ran, State.takeAndServe_manual h hopen takes hrule]

end

/-! ### The checks (R148) -/

theorem spaceOfNumber_eq_loop {n : Nat} : spaceOfNumber n = some .loop ↔ n = 1 := by
  unfold spaceOfNumber; split <;> simp_all

theorem loopOfNat_of_large {m : Nat} (h : 16 ≤ m) : loopOfNat m = none := dif_neg (Nat.not_lt.2 h)

theorem loopOfNat_val (k : Fin Config.loopCount) : loopOfNat k = some k := dif_pos k.isLt

section
variable {s : State} {c : Cell}

theorem State.manualRule_of_badSpace (h : c.space ≠ 1) : s.manualRule (Request.ofCell c) = s.refuse .badSpace := by
  unfold State.manualRule
  split
  · next hs => exact absurd (spaceOfNumber_eq_loop.1 hs) h
  all_goals rfl

theorem State.manualRule_of_badEntry (h : c.space = 1) (hentry : 16 ≤ c.b1.toNat) :
    s.manualRule (Request.ofCell c) = s.refuse .badEntry := by
  simp only [State.manualRule, Request.ofCell, spaceOfNumber_eq_loop.2 h, loopOfNat_of_large hentry]

theorem State.manualRule_of_entry (h : c.space = 1) {k : Fin Config.loopCount} (hk : c.b1.toNat = k) :
    s.manualRule (Request.ofCell c) =
      if c.value = -1 ∨ (0 ≤ c.value ∧ c.value ≤ 255) then s.manualLoop k c.value else s.refuse .badValue := by
  simp only [State.manualRule, Request.ofCell, spaceOfNumber_eq_loop.2 h, hk, loopOfNat_val]

end

theorem manualChecksInOrder : Clause.ManualChecksInOrder := by
  intro s c rest i h hopen hop hi refused
  have served : ∀ st, (s.taken rest).manualRule (Request.ofCell c)
      = (s.taken rest).refuse st → exec i s = refused st := fun st hrule => by
    rw [hi]
    split
    · next hv => exact exec_manualRelease h hopen hop hv hrule
    · next hv => exact exec_manual h hopen hop hv hrule
  refine ⟨fun hspace => served _ (State.manualRule_of_badSpace hspace),
    fun hspace hentry => served _ (State.manualRule_of_badEntry hspace hentry), fun hspace hentry hvalue => served _ ?_⟩
  rw [State.manualRule_of_entry hspace (k := ⟨c.b1.toNat, hentry⟩) rfl, if_neg (by omega)]

/-! ### The loop (R91, R92) -/

section
variable {s : State} {k : Fin Config.loopCount}

/-- The answer of a MANUAL that has changed its loop. -/
theorem State.manualDone_updateLoop (s : State) (k : Fin Config.loopCount) (f : Loop → Loop) :
    (s.updateLoop k f).manualDone k = { state := s.updateLoop k f, reply := .result (f s.loops[k]).drive } := by
  rw [State.manualDone, State.updateLoop_loops, getElem_set_table, if_pos rfl]

theorem State.manualLoop_of_disabled (h : s.loops[k].state = .disabled) (v : Int) :
    s.manualLoop k v = s.refuse .badEntry := by
  simp only [State.manualLoop, h]

/-- A duty takes over a loop in every state but DISABLED (R91). -/
theorem State.manualLoop_drives (h : s.loops[k].state ≠ .disabled) {v : Int} (hv : v ≠ -1) :
    s.manualLoop k v = (s.updateLoop k (Loop.enterManual v.toNat)).manualDone k := by
  unfold State.manualLoop
  split
  · contradiction
  all_goals exact if_neg hv

theorem State.manualLoop_releases (h : s.loops[k].state = .manual) :
    s.manualLoop k (-1) =
      (s.updateLoop k (Loop.release s.settings.mode s.channels[s.loops[k].cfg.source].dyn.state)).manualDone k := by
  simp only [State.manualLoop, h, if_true]

/-- A release finds nothing to do out of MANUAL (R92). -/
theorem State.manualLoop_idle (h : s.loops[k].state ≠ .disabled) (hm : s.loops[k].state ≠ .manual) :
    s.manualLoop k (-1) = s.manualDone k := by
  unfold State.manualLoop
  split
  · contradiction
  · contradiction
  all_goals rfl

end

section
variable {mode : Mode} {l : Loop} {source : ChannelState}

theorem Loop.release_of_silent (h : source = .stale ∨ source = .unseen) :
    l.release mode source = { l.setDrive l.cfg.failsafeDuty with state := .held, satCount := 0 } := by
  rcases h with rfl | rfl <;> rfl

theorem Loop.release_of_live (hstale : source ≠ .stale) (hunseen : source ≠ .unseen) :
    l.release mode source =
      if l.cfg.stopDuty ≤ l.drive then
        Loop.nextStepDown mode { l.setDrive (min l.drive l.cfg.maxDuty) with state := .running, satCount := 0 }
      else Loop.nextStepDown mode { l.setDrive 0 with state := .stopped, satCount := 0 } := by
  unfold Loop.release
  split
  · contradiction
  · contradiction
  all_goals rfl

end

theorem manualDrivesAndReleases : Clause.ManualDrivesAndReleases := by
  intro s c rest k h hopen hop hspace hk l source done refused entered
  have rule : ∀ v, c.value = v → v = -1 ∨ (0 ≤ v ∧ v ≤ 255) →
      (s.taken rest).manualRule (Request.ofCell c)
        = (s.taken rest).manualLoop k v := fun v hv hrange => by
    rw [State.manualRule_of_entry hspace hk, hv, if_pos hrange]
  have released : ∀ l', c.value = -1 → l.state = .manual → l.release s.settings.mode source = l' →
      exec .manualRelease s = done l' := fun l' hv hstate hl => by
    refine exec_manualRelease h hopen hop hv ?_
    rw [rule _ hv (.inl rfl), State.manualLoop_releases (s := s.taken rest) hstate,
      State.manualDone_updateLoop, ← hl]
    rfl
  simp only [entered, s.paced_eq]
  refine ⟨fun d hv hd hlive => ?_, fun d hv hd hstate => ?_, fun hv hstate => ?_, fun hv hlive hm => ?_,
    fun hv hstate hsource => ?_, fun hv hstate hstale hunseen hle => ?_, fun hv hstate hstale hunseen hlt => ?_⟩
  · refine exec_manual h hopen hop (by omega) ?_
    rw [rule _ hv (by omega), State.manualLoop_drives (s := s.taken rest) hlive (by omega),
      State.manualDone_updateLoop]
    rfl
  · refine exec_manual h hopen hop (by omega) ?_
    rw [rule _ hv (by omega), State.manualLoop_of_disabled (s := s.taken rest) hstate]
    rfl
  · refine exec_manualRelease h hopen hop hv ?_
    rw [rule _ hv (.inl rfl), State.manualLoop_of_disabled (s := s.taken rest) hstate]
    rfl
  · refine exec_manualRelease h hopen hop hv ?_
    rw [rule _ hv (.inl rfl), State.manualLoop_idle (s := s.taken rest) hlive hm]
    rfl
  · exact released _ hv hstate (Loop.release_of_silent hsource)
  · exact released _ hv hstate ((Loop.release_of_live hstale hunseen).trans (if_pos hle))
  · exact released _ hv hstate ((Loop.release_of_live hstale hunseen).trans (if_neg (Nat.not_le.2 hlt)))

/-- Settles O31: a MANUAL of an OPEN session is served by its rule, whose checks come in order and whose effect the STATE decides. -/
theorem manualOverridesLoops : Obligations.ManualOverridesLoops :=
  ⟨manualChecksInOrder, manualDrivesAndReleases⟩

end Sys2Proof.Machine

/-! ## O59: the counters, the runs and the cold-reset condition -/

namespace Sys2Proof.Machine

/-! ### What a command leaves of the gauges -/

/-- What the laws of the counters look at: the holding of cold reset, the divider, the receivers and the 16-bit counters. -/
structure Gauges where
  held          : Bool
  divider       : Nat
  north         : Receiver
  south         : Receiver
  misses        : Nat
  abandoned     : Nat
  northOverflow : Nat
  southOverflow : Nat
  reqDiscards   : Nat

/-- The gauges of a state. -/
def State.gauges (s : State) : Gauges :=
  { held := s.coldHeld, divider := s.divider, north := s.north, south := s.south, misses := s.misses,
    abandoned := s.abandoned, northOverflow := s.northOverflow, southOverflow := s.southOverflow,
    reqDiscards := s.reqDiscards }

/-- A receiver's count and runs (R106, R112): the run of the other state is 0. -/
def Receiver.Sound (r : Receiver) : Prop :=
  r.crc ≤ 65535
    ∧ match r.link with
      | .hunt => r.goodRun < 8 ∧ r.badRun = 0
      | .sync => r.badRun < 4 ∧ r.goodRun = 0

theorem Receiver.sound_of_hunt {r : Receiver} (hl : r.link = .hunt) :
    r.Sound ↔ r.crc ≤ 65535 ∧ r.goodRun < 8 ∧ r.badRun = 0 := by
  simp only [Receiver.Sound, hl]

theorem Receiver.sound_of_sync {r : Receiver} (hl : r.link = .sync) :
    r.Sound ↔ r.crc ≤ 65535 ∧ r.badRun < 4 ∧ r.goodRun = 0 := by
  simp only [Receiver.Sound, hl]

/-- A receiver that enters a state has both runs 0 (R109, R110). -/
theorem Receiver.sound_enter {r : Receiver} (h : r.crc ≤ 65535) (link : LinkState) : (r.enter link).Sound := by
  cases link with
  | hunt => exact ⟨h, Nat.zero_lt_succ 7, rfl⟩
  | sync => exact ⟨h, Nat.zero_lt_succ 3, rfl⟩

theorem bump16_le (n : Nat) : bump16 n ≤ 65535 := Nat.min_le_right ..

/-- Every counter ends at 65535, the divider stays below its count, and both receivers are sound (R106, R112, R132, R177). -/
def Gauges.Sound (g : Gauges) : Prop :=
  g.misses ≤ 65535 ∧ g.abandoned ≤ 65535 ∧ g.northOverflow ≤ 65535 ∧ g.southOverflow ≤ 65535 ∧ g.reqDiscards ≤ 65535
    ∧ g.divider < Config.refclkPerTick ∧ g.north.Sound ∧ g.south.Sound

theorem State.countersSound_iff (s : State) : s.CountersSound ↔ s.gauges.Sound :=
  ⟨fun ⟨hmiss, habandoned, hnorth, hsouth, hdiscards, hdivider, hr⟩ =>
      ⟨hmiss, habandoned, hnorth, hsouth, hdiscards, hdivider, hr .north, hr .south⟩,
    fun ⟨hmiss, habandoned, hnorth, hsouth, hdiscards, hdivider, hn, hs⟩ =>
      ⟨hmiss, habandoned, hnorth, hsouth, hdiscards, hdivider, fun p => match p with | .north => hn | .south => hs⟩⟩

/-- What every command but the cold resets does: it neither brings nor ends the holding of cold reset, and keeps the ranges of the
counters and runs. -/
structure KeepsCounters (s t : State) : Prop where
  held : t.coldHeld = s.coldHeld
  sound : s.gauges.Sound → t.gauges.Sound

section
variable {s s' t t' u : State}

theorem KeepsCounters.trans (h : KeepsCounters s t) (h' : KeepsCounters t u) : KeepsCounters s u :=
  ⟨h'.held.trans h.held, fun hs => h'.sound (h.sound hs)⟩

theorem KeepsCounters.of_gauges (h : t.gauges = s.gauges) : KeepsCounters s t :=
  ⟨congrArg Gauges.held h, fun hs => h ▸ hs⟩

theorem KeepsCounters.refl (s : State) : KeepsCounters s s := .of_gauges rfl

/-- The gauges alone decide. -/
theorem KeepsCounters.congr (h : KeepsCounters s t) (hs : s.gauges = s'.gauges) (ht : t'.gauges = t.gauges) :
    KeepsCounters s' t' :=
  (KeepsCounters.of_gauges hs).trans (h.trans (.of_gauges ht))

theorem KeepsCounters.from_gauges (h : KeepsCounters s t) (hs : s.gauges = s'.gauges) : KeepsCounters s' t := h.congr hs rfl

end

/-! ### Commands that leave the gauges -/

@[simp] theorem State.gauges_raise (s : State) (a : Alarm) : (s.raise a).gauges = s.gauges := by
  simp [State.gauges, State.coldHeld]

@[simp] theorem State.gauges_complete (s : State) (c : Cell) (reply : Reply) : (s.complete c reply).gauges = s.gauges := by
  simp [State.gauges, State.coldHeld, State.complete]

@[simp] theorem State.gauges_resolveProposal (s : State) : s.resolveProposal.gauges = s.gauges := by
  simp [State.gauges, State.coldHeld]

/-- A change of synchronisation changes its receiver alone of the gauges (R109). -/
theorem State.gauges_enterSync (s : State) (p : Port) :
    (s.enterSync p).gauges = (s.withReceiver p ((s.receiver p).enter .sync)).gauges := by
  unfold State.enterSync
  cases p <;> exact State.gauges_raise ..

/-- A change of synchronisation changes its receiver alone of the gauges (R110). -/
theorem State.gauges_enterHunt (s : State) (p : Port) :
    (s.enterHunt p).gauges = (s.withReceiver p ((s.receiver p).enter .hunt)).gauges := by
  unfold State.enterHunt
  cases p <;> exact State.gauges_raise ..

@[simp] theorem State.gauges_updateChannel (s : State) (n : Fin Config.channelCount) (f : Channel → Channel) :
    (s.updateChannel n f).gauges = s.gauges := rfl

@[simp] theorem State.gauges_updateDyn (s : State) (n : Fin Config.channelCount) (f : ChannelDynamic → ChannelDynamic) :
    (s.updateDyn n f).gauges = s.gauges := rfl

@[simp] theorem State.gauges_sourceSampleEvent (s : State) (n : Fin Config.channelCount) :
    (s.sourceSampleEvent n).gauges = s.gauges := rfl

@[simp] theorem State.gauges_evalSample (s : State) (n : Fin Config.channelCount) (v : Int) :
    (s.evalSample n v).gauges = s.gauges := by
  obtain ⟨d, -, h⟩ := s.evaluated_evalSample n v
  rw [h]
  rfl

theorem State.gauges_sendForwarded (s : State) : s.sendForwarded.gauges = s.gauges := by
  unfold State.sendForwarded
  split <;> rfl

theorem State.gauges_northSlot (s : State) : s.fillNorthSlot.gauges = s.gauges := by
  unfold State.fillNorthSlot
  split
  · rfl
  · split
    · exact s.gauges_sendForwarded
    · unfold State.sendInserted
      split
      · rfl
      · split
        · rfl
        · exact s.gauges_sendForwarded

theorem State.gauges_southSlot (s : State) : s.fillSouthSlot.gauges = s.gauges := by
  unfold State.fillSouthSlot
  split
  · rfl
  · split
    · unfold State.contended
      split <;> rfl
    all_goals rfl

theorem State.gauges_deadlineExpires (s : State) (n : Fin Config.channelCount) :
    (s.deadlineExpires n).gauges = s.gauges := by
  unfold State.deadlineExpires
  dsimp only
  split
  · rfl
  · exact State.gauges_raise ..

theorem State.gauges_takeStep (s : State) (k : Fin Config.loopCount) : (s.takeStep k).gauges = s.gauges := by
  unfold State.takeStep
  dsimp only
  split
  · rfl
  · rfl
  · unfold State.stepLoop
    dsimp only
    split
    · exact State.gauges_raise ..
    · rfl

theorem State.gauges_acknowledge (s : State) (n : Fin Config.channelCount) : (s.acknowledge n).gauges = s.gauges := by
  unfold State.acknowledge
  dsimp only
  split
  · exact State.gauges_raise ..
  · rfl

/-! ### The rules of the Agent that leave the gauges -/

theorem State.gauges_ack (s : State) (r : Request) : (s.ack r).state.gauges = s.gauges := by
  unfold State.ack
  split
  · unfold State.ackSeq
    split
    · rfl
    · dsimp only
      split
      · exact State.gauges_acknowledge ..
      · rfl
  · split
    · next n _ =>
      have acknowledged : ((s.removeTripRecord n).acknowledge n).gauges = s.gauges := by
        rw [State.gauges_acknowledge, State.removeTripRecord]
        split <;> rfl
      unfold State.ackEntry
      split
      · exact acknowledged
      · exact acknowledged
      all_goals rfl
    · rfl
  all_goals rfl

theorem State.gauges_manualRule (s : State) (r : Request) : (s.manualRule r).state.gauges = s.gauges := by
  unfold State.manualRule
  split
  · split
    · split
      · unfold State.manualLoop State.manualDone
        split
        · rfl
        all_goals split <;> rfl
      · rfl
    · rfl
  all_goals rfl

theorem State.gauges_removeRule (s : State) (r : Request) : (s.removeRule r).state.gauges = s.gauges := by
  unfold State.removeRule
  split
  · split
    · unfold State.removeEntry
      split <;> rfl
    · rfl
  · split <;> rfl
  all_goals rfl

theorem State.gauges_setPartRule (s : State) (r : Request) : (s.setPartRule r).state.gauges = s.gauges := by
  unfold State.setPartRule
  split
  · split
    case h_4 p _ =>
      obtain ⟨f, g, -, -, h⟩ := s.withSettings_spec p
      rw [h]
      rfl
    all_goals rfl
  all_goals rfl

theorem State.gauges_openPhase1Rule (s : State) (r : Request) : (s.openPhase1Rule r).state.gauges = s.gauges := by
  unfold State.openPhase1Rule
  split
  · split <;> rfl
  · rfl

theorem State.gauges_takePhase2 (s : State) (c : Cell) (r : Request) : (s.takePhase2 c r).gauges = s.gauges := by
  unfold State.takePhase2
  split
  · exact State.gauges_complete ..
  · rw [State.gauges_complete, State.gauges_resolveProposal]

theorem State.gauges_takeClose (s : State) (c : Cell) (r : Request) : (s.takeClose c r).gauges = s.gauges := by
  unfold State.takeClose
  split <;> exact State.gauges_complete ..

theorem State.gauges_editLoadRule (s : State) (r : Request) : (s.editLoadRule r).state.gauges = s.gauges := by
  unfold State.editLoadRule
  split
  · split <;> rfl
  · split <;> rfl
  all_goals rfl

theorem State.gauges_editSetRule (s : State) (r : Request) : (s.editSetRule r).state.gauges = s.gauges := by
  have written : ∀ {α : Type} (load : α → EditBuffer) w, (s.editWritten r.value load w).state.gauges = s.gauges :=
    fun load w => by
      rcases s.editWritten_cases r.value load w with h | ⟨cfg, -, h⟩ <;> rw [h]
      rfl
  unfold State.editSetRule
  split
  · exact written _ _
  · exact written _ _
  all_goals rfl

theorem State.gauges_takeCommit (s : State) (c : Cell) (r : Request) : (s.takeCommit c r).gauges = s.gauges := by
  unfold State.takeCommit
  dsimp only
  split
  · rw [State.gauges_complete, State.gauges_resolveProposal]
  · split
    · rw [State.gauges_complete, State.gauges_resolveProposal]
    · exact s.gauges_resolveProposal

theorem State.gauges_judge (s : State) (target : CommitTarget) : (s.judge target).state.gauges = s.gauges := by
  unfold State.judge
  cases target with
  | channel n cfg =>
    obtain ⟨e, q, pin, -, -, h⟩ := s.installChannel_spec n cfg
    dsimp only
    split
    · rfl
    · rw [h]
      rfl
  | loop k cfg =>
    obtain ⟨l, q, pin, -, -, h⟩ := s.installLoop_spec k cfg
    dsimp only
    split
    · rfl
    · rw [h]
      rfl

theorem State.gauges_endScan (s : State) (c : Cell) : (s.endScan c).gauges = s.gauges := by
  unfold State.endScan
  split
  · exact State.gauges_complete ..
  · next target _ => exact (State.gauges_complete ..).trans (s.gauges_judge target)

/-! ### Commands that count -/

theorem keepsCounters_handNorth (s : State) (c : Cell) : KeepsCounters s (s.handNorth c) := by
  unfold State.handNorth
  split
  · exact .refl s
  · split
    · exact .of_gauges rfl
    · exact ⟨rfl, fun ⟨hmiss, habandoned, _, hrest⟩ => ⟨hmiss, habandoned, bump16_le _, hrest⟩⟩

theorem keepsCounters_handSouth (s : State) (c : Cell) : KeepsCounters s (s.handSouth c) := by
  unfold State.handSouth
  split
  · exact .refl s
  · split
    · exact .of_gauges rfl
    · exact ⟨rfl, fun ⟨hmiss, habandoned, hnorth, _, hrest⟩ => ⟨hmiss, habandoned, hnorth, bump16_le _, hrest⟩⟩

theorem keepsCounters_withReceiver (s : State) (p : Port) {r : Receiver} (h : (s.receiver p).Sound → r.Sound) :
    KeepsCounters s (s.withReceiver p r) := by
  refine ⟨by cases p <;> rfl, fun ⟨hmiss, habandoned, hnorth, hsouth, hdiscards, hdivider, hn, hs⟩ => ?_⟩
  cases p with
  | north => exact ⟨hmiss, habandoned, hnorth, hsouth, hdiscards, hdivider, h hn, hs⟩
  | south => exact ⟨hmiss, habandoned, hnorth, hsouth, hdiscards, hdivider, hn, h hs⟩

/-- The forward decision hands its cell north, or leaves the gauges (R20). -/
theorem keepsCounters_forward (s : State) (n : Fin Config.channelCount) (prior : ChannelState) (v : Int) (c : Cell) :
    KeepsCounters s (s.forward n prior v c) := by
  have sent : ∀ (b : State) (d : Cell), s.gauges = b.gauges → KeepsCounters s (b.handNorth d) :=
    fun b d h => (keepsCounters_handNorth b d).congr h.symm rfl
  unfold State.forward
  dsimp only
  split
  · exact sent s _ rfl
  · exact sent _ _ rfl
  · split
    · exact sent _ _ rfl
    · exact .refl s
  · exact .refl s

theorem keepsCounters_classify (s : State) (c : Cell) : KeepsCounters s (s.classify c) := by
  rcases s.classify_cases c with ⟨-, h⟩ | ⟨n, -, -, -, h⟩ | ⟨-, -, h⟩ <;> rw [h]
  · exact keepsCounters_handNorth s c
  · have hit : s.takeHit n c =
        (((s.hitEvaluated n c).sourceSampleEvent n).updateChannel n Channel.restartDeadline).forward n
          s.channels[n].dyn.state (s.channels[n].cfg.condition c.value) c := rfl
    rw [hit]
    exact (keepsCounters_forward _ n _ _ c).from_gauges (by simp [State.hitEvaluated, State.recorded])
  · have recorded : ∀ list, KeepsCounters s { s with missList := list, misses := bump16 s.misses } :=
      fun _ => ⟨rfl, fun ⟨_, hrest⟩ => ⟨bump16_le _, hrest⟩⟩
    unfold State.takeMiss
    dsimp only
    split
    · exact (recorded _).trans (keepsCounters_handNorth _ c)
    · exact recorded _

theorem keepsCounters_dispatch (s : State) (p : Port) (c : Cell) : KeepsCounters s (s.dispatch p c) := by
  rcases s.dispatch_cases p c with
    h | ⟨-, -, h⟩ | ⟨d, -, -, h⟩ | ⟨d, -, h⟩ | ⟨-, -, h⟩ | ⟨-, h⟩ | ⟨k, -, -, h⟩ <;> rw [h]
  · exact .refl s
  · exact keepsCounters_classify s c
  · exact keepsCounters_handNorth s d
  · exact keepsCounters_handSouth s d
  · exact .of_gauges rfl
  · exact ⟨rfl, fun ⟨hmiss, habandoned, hnorth, hsouth, _, hrest⟩ =>
      ⟨hmiss, habandoned, hnorth, hsouth, bump16_le _, hrest⟩⟩
  · exact .of_gauges rfl

/-- A receiver's runs stay short of the runs that change its state, and every change of state ends them (R107 to R110). -/
theorem keepsCounters_arrival (s : State) (p : Port) (a : Arrival) : KeepsCounters s (s.takeArrival p a) := by
  have entered : ∀ (r : Receiver) (link : LinkState), (r.crc = (s.receiver p).crc ∨ r.crc = bump16 (s.receiver p).crc) →
      KeepsCounters s (s.withReceiver p (r.enter link)) := fun r link hcrc =>
    keepsCounters_withReceiver s p fun ⟨h, _⟩ => Receiver.sound_enter
      (by rcases hcrc with hr | hr <;> rw [hr]
          · exact h
          · exact bump16_le _) link
  rcases s.takeArrival_cases p a with
    ⟨r, h, hlink, hcase⟩ | ⟨r, h, -, hcrc⟩ | ⟨r, h, -, hcrc⟩ | ⟨c, -, -, hlink, h⟩ <;> rw [h]
  · refine keepsCounters_withReceiver s p fun hr => ?_
    rcases hcase with ⟨hl, hgood, hbad, hcrc⟩ | ⟨hl, hgood, hlt, hbad, hcrc⟩ | ⟨hl, hgood, hbad, hlt, hcrc⟩
    · obtain ⟨-, -, hbad'⟩ := (Receiver.sound_of_hunt (hlink.symm.trans hl)).1 hr
      exact (Receiver.sound_of_hunt hl).2 ⟨hcrc ▸ bump16_le _, by omega, hbad.trans hbad'⟩
    · obtain ⟨hcrc', -, hbad'⟩ := (Receiver.sound_of_hunt (hlink.symm.trans hl)).1 hr
      exact (Receiver.sound_of_hunt hl).2 ⟨hcrc ▸ hcrc', hlt, hbad.trans hbad'⟩
    · obtain ⟨-, -, hgood'⟩ := (Receiver.sound_of_sync (hlink.symm.trans hl)).1 hr
      exact (Receiver.sound_of_sync hl).2 ⟨hcrc ▸ bump16_le _, hlt, hgood.trans hgood'⟩
  · exact (entered r .sync (.inl hcrc)).congr rfl (by simp [State.gauges_enterSync])
  · exact (entered r .hunt (.inr hcrc)).congr rfl (by simp [State.gauges_enterHunt])
  · refine .trans (keepsCounters_withReceiver s p (r := { s.receiver p with badRun := 0 }) fun hr => ?_)
      (keepsCounters_dispatch (s.goodTaken p) p c)
    obtain ⟨hcrc, -, hgood⟩ := (Receiver.sound_of_sync hlink).1 hr
    exact (Receiver.sound_of_sync (r := { s.receiver p with badRun := 0 }) hlink).2 ⟨hcrc, Nat.zero_lt_succ 3, hgood⟩

theorem keepsCounters_resend (s : State) (seq : Nat) : KeepsCounters s (s.resendExpires seq) := by
  unfold State.resendExpires
  split
  · split
    · exact ⟨rfl, fun ⟨hmiss, _, hrest⟩ => ⟨hmiss, bump16_le _, hrest⟩⟩
    · exact .of_gauges rfl
  · exact .refl s
  · exact .refl s

theorem keepsCounters_clearRule (s : State) (r : Request) : KeepsCounters s (s.clearRule r).state := by
  have cleared : ∀ {r : Receiver}, r.Sound → ({ r with crc := 0 } : Receiver).Sound := fun h => ⟨Nat.zero_le _, h.2⟩
  unfold State.clearRule
  split
  case h_2 =>
    exact ⟨rfl, fun ⟨_, _, _, _, _, hdivider, hn, hs⟩ =>
      ⟨Nat.zero_le _, Nat.zero_le _, Nat.zero_le _, Nat.zero_le _, Nat.zero_le _, hdivider, cleared hn, cleared hs⟩⟩
  all_goals exact .of_gauges rfl

/-- A warm reset sets the part counters but those of the receivers to 0, and leaves the divider (R133, R154). -/
theorem State.gauges_warmReset (s : State) :
    s.warmReset.gauges =
      { s.gauges with misses := 0, abandoned := 0, northOverflow := 0, southOverflow := 0, reqDiscards := 0 } := by
  simp [State.gauges, State.coldHeld, State.warmReset, State.sessionReset, State.forwardingReset, State.alarmReset]

theorem keepsCounters_warmReset (s : State) : KeepsCounters s s.warmReset := by
  refine ⟨congrArg Gauges.held s.gauges_warmReset, fun ⟨_, _, _, _, _, hrest⟩ => ?_⟩
  rw [s.gauges_warmReset]
  exact ⟨Nat.zero_le _, Nat.zero_le _, Nat.zero_le _, Nat.zero_le _, Nat.zero_le _, hrest⟩

theorem keepsCounters_restartFalls (s : State) (heldLowNs : Nat) : KeepsCounters s (s.restartFalls heldLowNs) := by
  have warm : KeepsCounters s ({ s with restartLow := true } : State).warmReset :=
    (keepsCounters_warmReset _).from_gauges rfl
  unfold State.restartFalls
  dsimp only
  split
  · exact warm
  · split
    · exact warm.congr rfl rfl
    · exact .of_gauges rfl

theorem State.gauges_tickBoundary (s : State) : s.tickBoundary.gauges = { s.gauges with divider := 0 } := by
  simp [State.gauges, State.coldHeld, State.tickBoundary, State.countBoundary]

/-- The divider stays below its count: at the count it starts again (R177). -/
theorem keepsCounters_idle (s : State) : KeepsCounters s s.idle := by
  unfold State.idle
  split
  · exact .refl s
  · split
    · next hlt => exact ⟨rfl, fun ⟨hmiss, habandoned, hnorth, hsouth, hdiscards, _, hrest⟩ =>
        ⟨hmiss, habandoned, hnorth, hsouth, hdiscards, hlt, hrest⟩⟩
    · refine ⟨congrArg Gauges.held s.gauges_tickBoundary,
        fun ⟨hmiss, habandoned, hnorth, hsouth, hdiscards, _, hrest⟩ => ?_⟩
      rw [s.gauges_tickBoundary]
      exact ⟨hmiss, habandoned, hnorth, hsouth, hdiscards, (by decide : 0 < Config.refclkPerTick), hrest⟩

theorem KeepsCounters.takeRequest {row : RequestRow} {execute : State → Cell → Request → State}
    (h : ∀ b c r, KeepsCounters b (execute b c r)) (s : State) : KeepsCounters s (s.takeRequest row execute) := by
  rcases s.takeRequest_cases row execute with ht | ⟨c, rest, -, -, -, -, ht⟩ <;> rw [ht]
  · exact .refl s
  · exact (h _ c _).from_gauges rfl

theorem KeepsCounters.takeAndServe {row : RequestRow} {g : Gates} {rule : State → Request → Answer}
    (h : ∀ b r, KeepsCounters b (rule b r).state) (s : State) : KeepsCounters s (s.takeAndServe row g rule) := by
  refine .takeRequest (fun b c r => ?_) s
  unfold State.serve
  dsimp only
  split
  · exact .of_gauges ((State.gauges_complete ..).trans b.gauges_resolveProposal)
  · exact (h _ r).congr b.gauges_resolveProposal (State.gauges_complete ..)

/-! ### Every command and every step -/

/-- The counters are sound, and a part held in cold reset stands in its condition: what every step keeps. -/
def State.GaugesSound (s : State) : Prop := s.CountersSound ∧ s.ColdSound

/-- A part in the cold-reset condition, whatever the pins. -/
theorem State.gaugesSound_of_cold {t : State} (h : t = t.coldCondition) : t.GaugesSound := by
  have receiver : Receiver.coldReset.Sound := ⟨Nat.zero_le _, Nat.zero_lt_succ 7, rfl⟩
  refine ⟨?_, fun _ => h⟩
  rw [h]
  exact (State.countersSound_iff _).2 ⟨Nat.zero_le _, Nat.zero_le _, Nat.zero_le _, Nat.zero_le _, Nat.zero_le _,
    (by decide : 0 < Config.refclkPerTick), receiver, receiver⟩

section
variable {s t : State}

/-- A part that is not held in cold reset is free of its condition. -/
theorem KeepsCounters.gaugesSound (h : KeepsCounters s t) (hheld : s.coldHeld = false) (hs : s.GaugesSound) :
    t.GaugesSound :=
  ⟨t.countersSound_iff.2 (h.sound (s.countersSound_iff.1 hs.1)),
    fun hcold => absurd (h.held.symm.trans hcold) (by simp [hheld])⟩

/-- The commands that wait and the level of RESTART# lie outside the cold-reset condition. -/
theorem State.GaugesSound.outside (hs : s.GaugesSound) (rest : List Instr) (low : Bool) :
    ({ s with pending := rest, restartLow := low } : State).GaugesSound := by
  obtain ⟨hcounters, hcold⟩ := hs
  refine ⟨(State.countersSound_iff _).2 (s.countersSound_iff.1 hcounters), fun hheld => ?_⟩
  exact congrArg (fun t : State => { t with pending := rest, restartLow := low }) (hcold hheld)

theorem State.GaugesSound.happening {effect : State → State} (hs : s.GaugesSound) (h : happening s effect = .next t)
    (he : KeepsCounters s (effect s)) : t.GaugesSound := by
  rcases happening_cases h with ⟨-, rfl⟩ | ⟨hheld, rfl⟩
  · exact hs
  · exact he.gaugesSound hheld hs

theorem State.GaugesSound.expiry {due : State → Bool} {effect : State → State} (hs : s.GaugesSound)
    (h : expiry s due effect = .next t) (he : KeepsCounters s (effect s)) : t.GaugesSound := by
  refine hs.happening h ?_
  split
  · exact he
  · exact .refl s

theorem State.GaugesSound.coldReset {edge : ColdEdge} (hs : s.GaugesSound) (h : execColdReset edge s = .next t) :
    t.GaugesSound := by
  unfold execColdReset at h
  cases edge with
  | resetFalls | powerUpBegins =>
    cases h
    exact State.gaugesSound_of_cold rfl
  | resetRises | powerUpEnds =>
    cases h
    split
    · exact State.gaugesSound_of_cold rfl
    · exact hs

theorem State.GaugesSound.restartEdge {edge : RestartEdge} (hs : s.GaugesSound) (h : execWarmReset edge s = .next t) :
    t.GaugesSound := by
  unfold execWarmReset at h
  cases edge with
  | rises =>
    cases h
    exact hs.outside s.pending false
  | falls heldLowNs =>
    cases h
    split
    · exact hs
    · split
      · exact hs.outside s.pending true
      · next hheld => exact (keepsCounters_restartFalls s heldLowNs).gaugesSound (by simpa using hheld) hs

theorem State.GaugesSound.exec {i : Instr} (hs : s.GaugesSound) (h : exec i s = .next t) : t.GaugesSound := by
  unfold Machine.exec at h
  cases i with
  | coldReset edge => exact hs.coldReset h
  | warmReset edge => exact hs.restartEdge h
  | arrival p a => exact hs.happening h (keepsCounters_arrival s p a)
  | northSlot => exact hs.happening h (.of_gauges s.gauges_northSlot)
  | southSlot => exact hs.happening h (.of_gauges s.gauges_southSlot)
  | deadlineExpiry n => exact hs.expiry h (.of_gauges (s.gauges_deadlineExpires n))
  | resendTimerExpiry seq => exact hs.happening h (keepsCounters_resend s seq)
  | step k => exact hs.expiry h (.of_gauges (s.gauges_takeStep k))
  | forwardRefreshExpiry | stopTimerExpiry | refreshTimerExpiry | proposalTimerExpiry | sessionTimerExpiry =>
    exact hs.expiry h (.of_gauges rfl)
  | read | unknownRequest => exact hs.happening h (.takeAndServe (fun b _ => .refl b) s)
  | openPhase1 => exact hs.happening h (.takeAndServe (fun b r => .of_gauges (b.gauges_openPhase1Rule r)) s)
  | openPhase2 => exact hs.happening h (.takeRequest (fun b c r => .of_gauges (b.gauges_takePhase2 c r)) s)
  | close => exact hs.happening h (.takeRequest (fun b c r => .of_gauges (b.gauges_takeClose c r)) s)
  | editLoad => exact hs.happening h (.takeAndServe (fun b r => .of_gauges (b.gauges_editLoadRule r)) s)
  | editSet => exact hs.happening h (.takeAndServe (fun b r => .of_gauges (b.gauges_editSetRule r)) s)
  | commit => exact hs.happening h (.takeRequest (fun b c r => .of_gauges (b.gauges_takeCommit c r)) s)
  | endOfScan =>
    refine hs.happening h ?_
    split
    · exact .of_gauges (s.gauges_endScan _)
    · exact .refl s
  | removeChannel | removeLoop => exact hs.happening h (.takeAndServe (fun b r => .of_gauges (b.gauges_removeRule r)) s)
  | setPart => exact hs.happening h (.takeAndServe (fun b r => .of_gauges (b.gauges_setPartRule r)) s)
  | ackAlarm | ackChannel => exact hs.happening h (.takeAndServe (fun b r => .of_gauges (b.gauges_ack r)) s)
  | manual | manualRelease => exact hs.happening h (.takeAndServe (fun b r => .of_gauges (b.gauges_manualRule r)) s)
  | clearMiss | clearPart => exact hs.happening h (.takeAndServe keepsCounters_clearRule s)
  | restart => exact hs.happening h (.takeAndServe (fun b _ => keepsCounters_warmReset b) s)
  | freeze => exact hs.happening h (.takeAndServe (fun _ _ => .of_gauges rfl) s)

/-- A part held in cold reset stands still while no command comes (R178). -/
theorem State.GaugesSound.idle (hs : s.GaugesSound) : s.idle.GaugesSound := by
  cases hheld : s.coldHeld with
  | true => simpa [State.idle, hheld] using hs
  | false => exact (keepsCounters_idle s).gaugesSound hheld hs

end

/-- Settles O59: a counter stops at its end and a run ends in the change of state it brings; on a part held in cold reset only the
cold resets act, and the level of RESTART# is seen. -/
theorem stepKeepsCountersAndColdReset : Obligations.StepKeepsCountersAndColdReset := by
  intro s t hs h
  have sound : s.GaugesSound := hs
  unfold step at h
  split at h
  · next i rest _ => exact (sound.outside rest s.restartLow).exec h
  · cases h
    exact sound.idle

end Sys2Proof.Machine

/-! ## O7: relaying -/

namespace Sys2Proof.Machine

/-- Byte 0 holds any HOP of four bits beside the KIND that is kept (R183). -/
theorem byte0_withHop (c : Cell) {hop : Nat} (h : hop ≤ 15) : (c.withHop hop).b0.toNat = c.kind * 16 + hop := by
  have hbyte := c.b0.isLt
  refine Nat.mod_eq_of_lt ?_
  unfold Cell.kind
  omega

/-- A cell given another HOP and sealed: HOP is written, KIND and every byte but 0 and 7 kept, and CHECK is correct (R114). -/
theorem sealed_withHop (c : Cell) {hop : Nat} (h : hop ≤ 15) :
    (c.withHop hop).sealed.hop = hop ∧ (c.withHop hop).sealed.kind = c.kind ∧ (c.withHop hop).sealed.good = true
      ∧ (c.withHop hop).sealed = { c with b0 := (c.withHop hop).sealed.b0, b7 := (c.withHop hop).sealed.b7 } := by
  have hbyte : (c.withHop hop).sealed.b0.toNat = c.kind * 16 + hop := byte0_withHop c h
  refine ⟨?_, ?_, good_sealed _, rfl⟩
  · rw [Cell.hop, hbyte]
    omega
  · rw [Cell.kind, hbyte]
    omega

theorem hop_le (c : Cell) : c.hop ≤ 15 := Nat.le_of_lt_succ (Nat.mod_lt _ (by decide))

/-- Settles O7: a relayed cell is the cell with another HOP, sealed, but for HOP 15 at the north; the cells the part makes have
HOP 0. -/
theorem relayChangesOnlyHopAndCheck : Obligations.RelayChangesOnlyHopAndCheck := by
  refine ⟨fun c h => if_pos h, fun c h => ?_, fun c _ => ?_, fun _ _ => hop_makeCell .., fun _ => hop_makeCell ..⟩
  · rw [show relayNorth c = (c.withHop (c.hop + 1)).sealed from if_neg h]
    exact sealed_withHop c (Nat.lt_of_le_of_ne (hop_le c) h)
  · exact sealed_withHop c ((Nat.sub_le ..).trans (hop_le c))

end Sys2Proof.Machine

/-! ## O10: the runs of the receivers -/

namespace Sys2Proof.Machine

section
variable {s : State} {p : Port}

/-- Outside cold reset an arrival is judged (R105). -/
theorem exec_arrival (h : s.coldHeld = false) (p : Port) (a : Arrival) : exec (.arrival p a) s = .next (s.takeArrival p a) :=
  happening_of_running h fun s => s.takeArrival p a

theorem State.takeArrival_of_bad (s : State) (p : Port) {a : Arrival} (h : a.Bad) : s.takeArrival p a = s.takeBad p := by
  cases a with
  | void => rfl
  | cell c => simp only [State.takeArrival, show c.good = false from h, Bool.false_eq_true, if_false]

theorem State.takeArrival_of_good (s : State) (p : Port) {c : Cell} (h : c.good = true) :
    s.takeArrival p (.cell c) = s.takeGood p c := by
  simp only [State.takeArrival, h, if_true]

/-- Entering a state ends both runs, whatever they were: of a receiver only the count of bad arrivals matters (R109, R110). -/
theorem State.enterSync_withReceiver (s : State) (p : Port) {r : Receiver} (h : r.crc = (s.receiver p).crc) :
    (s.withReceiver p r).enterSync p = s.enterSync p := by
  simp [State.enterSync, Receiver.enter, h]

theorem State.enterHunt_withReceiver (s : State) (p : Port) {r r' : Receiver} (h : r.crc = r'.crc) :
    (s.withReceiver p r).enterHunt p = (s.withReceiver p r').enterHunt p := by
  simp [State.enterHunt, Receiver.enter, h]

theorem State.takeBad_of_hunt (h : (s.receiver p).link = .hunt) :
    s.takeBad p = s.withReceiver p { s.receiver p with crc := bump16 (s.receiver p).crc, goodRun := 0 } := by
  simp only [State.takeBad, h]

theorem State.takeBad_of_sync (h : (s.receiver p).link = .sync) (hrun : (s.receiver p).badRun + 1 < 4) :
    s.takeBad p =
      s.withReceiver p { s.receiver p with crc := bump16 (s.receiver p).crc, badRun := (s.receiver p).badRun + 1 } := by
  simp only [State.takeBad, h, if_pos hrun]

/-- The bad arrival that completes the run is counted, and brings HUNT (R108). -/
theorem State.takeBad_of_last (h : (s.receiver p).link = .sync) (hrun : 4 ≤ (s.receiver p).badRun + 1) :
    s.takeBad p = (s.withReceiver p { s.receiver p with crc := bump16 (s.receiver p).crc }).enterHunt p := by
  simp only [State.takeBad, h, if_neg (Nat.not_lt.2 hrun)]
  exact s.enterHunt_withReceiver p rfl

theorem State.takeGood_of_hunt (h : (s.receiver p).link = .hunt) (hrun : (s.receiver p).goodRun + 1 < 8) (c : Cell) :
    s.takeGood p c = s.withReceiver p { s.receiver p with goodRun := (s.receiver p).goodRun + 1 } := by
  simp only [State.takeGood, h, if_pos hrun]

/-- The good cell that completes the run brings SYNC, and is not dispatched (R107). -/
theorem State.takeGood_of_last (h : (s.receiver p).link = .hunt) (hrun : 8 ≤ (s.receiver p).goodRun + 1) (c : Cell) :
    s.takeGood p c = s.enterSync p := by
  simp only [State.takeGood, h, if_neg (Nat.not_lt.2 hrun)]
  exact s.enterSync_withReceiver p rfl

theorem State.takeGood_of_sync (h : (s.receiver p).link = .sync) (c : Cell) :
    s.takeGood p c = (s.goodTaken p).dispatch p c := by
  simp only [State.takeGood, h, State.goodTaken]

end

theorem huntReceiverCountsGoodRun : Clause.HuntReceiverCountsGoodRun := by
  intro s p hrunning hlink
  refine ⟨fun a hbad => ?_, fun c hgood hrun => ?_, fun c hgood hrun => ?_⟩ <;> rw [exec_arrival hrunning]
  · rw [s.takeArrival_of_bad p hbad, State.takeBad_of_hunt hlink, bump16]
  · rw [s.takeArrival_of_good p hgood, State.takeGood_of_hunt hlink hrun]
  · rw [s.takeArrival_of_good p hgood, State.takeGood_of_last hlink hrun]

theorem syncReceiverCountsBadRun : Clause.SyncReceiverCountsBadRun := by
  intro s p hrunning hlink
  refine ⟨fun c hgood => ?_, fun a hbad hrun => ?_, fun a hbad hrun => ?_⟩ <;> rw [exec_arrival hrunning]
  · rw [s.takeArrival_of_good p hgood, State.takeGood_of_sync hlink]
  · rw [s.takeArrival_of_bad p hbad, State.takeBad_of_sync hlink hrun, bump16]
  · rw [s.takeArrival_of_bad p hbad, State.takeBad_of_last hlink hrun, bump16]

/-- Settles O10: an arrival by its judgement, the state of the receiver and the run it makes. -/
theorem receiversCountRuns : Obligations.ReceiversCountRuns :=
  ⟨huntReceiverCountsGoodRun, syncReceiverCountsBadRun⟩

end Sys2Proof.Machine

/-! ## O12: dispatch, and the FIFOs -/

namespace Sys2Proof.Machine

/-- A good cell at a receiver in SYNC is dispatched (R108). -/
theorem exec_dispatched {s : State} {p : Port} {kind : Nat} {c : Cell} (h : s.Reaches p kind c) :
    exec (.arrival p (.cell c)) s = .next ((s.goodTaken p).dispatch p c) := by
  obtain ⟨hrunning, hlink, hgood, -⟩ := h
  rw [exec_arrival hrunning, s.takeArrival_of_good p hgood, State.takeGood_of_sync hlink]

section
variable {s : State} {c : Cell}

theorem State.dispatchSouth_ignored (h : c.kind = 0 ∨ c.kind = 2 ∨ c.kind = 3) : s.dispatchSouth c = s := by
  rcases h with h | h | h <;> simp only [State.dispatchSouth, h]

theorem State.dispatchSouth_relayed (h : c.kind = 4 ∨ c.kind = 5) : s.dispatchSouth c = s.handNorth (relayNorth c) := by
  rcases h with h | h <;> simp only [State.dispatchSouth, h]

/-- The kinds the part does not know pass north (R113). -/
theorem State.dispatchSouth_unknown (h : 6 ≤ c.kind) : s.dispatchSouth c = s.handNorth c := by
  unfold State.dispatchSouth
  split
  case h_7 => rfl
  all_goals omega

theorem State.dispatchNorth_ignored (h : c.kind = 0 ∨ c.kind = 1 ∨ c.kind = 4 ∨ c.kind = 5) : s.dispatchNorth c = s := by
  rcases h with h | h | h | h <;> simp only [State.dispatchNorth, h]

theorem State.dispatchNorth_request (h : c.kind = 3) : s.dispatchNorth c = s.dispatchRequest c := by
  simp only [State.dispatchNorth, h]

/-- The kinds the part does not know pass south (R117). -/
theorem State.dispatchNorth_unknown (h : 6 ≤ c.kind) : s.dispatchNorth c = s.handSouth c := by
  unfold State.dispatchNorth
  split
  case h_7 => rfl
  all_goals omega

theorem State.dispatchRequest_held (h : c.hop = 0) (hroom : s.requests.length < 4) :
    s.dispatchRequest c = { s with requests := s.requests ++ [c] } := by
  simp only [State.dispatchRequest, if_pos h, if_pos hroom]

theorem State.dispatchRequest_discarded (h : c.hop = 0) (hfull : 4 ≤ s.requests.length) :
    s.dispatchRequest c = { s with reqDiscards := bump16 s.reqDiscards } := by
  simp only [State.dispatchRequest, if_pos h, if_neg (Nat.not_lt.2 hfull)]

theorem State.dispatchRequest_relayed (h : c.hop ≠ 0) : s.dispatchRequest c = s.handSouth (relaySouth c) :=
  if_neg h

end

theorem southReceiverDispatchesByKind : Clause.SouthReceiverDispatchesByKind := by
  intro s c kind h
  have dispatched : exec (.arrival .south (.cell c)) s = .next ((s.goodTaken .south).dispatchSouth c) := exec_dispatched h
  have ⟨_, _, _, hkind⟩ := h
  subst hkind
  refine ⟨fun hk => ?_, fun hk => exec_sample (hk ▸ h), fun hk => ?_, fun hk => ?_⟩ <;> rw [dispatched]
  · rw [State.dispatchSouth_ignored hk]
  · rw [State.dispatchSouth_relayed hk]
  · rw [State.dispatchSouth_unknown hk]

theorem northReceiverDispatchesByKind : Clause.NorthReceiverDispatchesByKind := by
  intro s c kind h
  have dispatched : exec (.arrival .north (.cell c)) s = .next ((s.goodTaken .north).dispatchNorth c) := exec_dispatched h
  obtain ⟨-, -, -, rfl⟩ := h
  refine ⟨fun hk => ?_, fun hk hhop hroom => ?_, fun hk hhop hfull => ?_, fun hk hhop => ?_, fun hk => ?_⟩ <;>
    rw [dispatched]
  · rw [State.dispatchNorth_ignored hk]
  · rw [State.dispatchNorth_request hk, State.dispatchRequest_held (s := s.goodTaken .north) hhop hroom]
    rfl
  · rw [State.dispatchNorth_request hk, State.dispatchRequest_discarded (s := s.goodTaken .north) hhop hfull]
    rfl
  · rw [State.dispatchNorth_request hk, State.dispatchRequest_relayed hhop]
  · rw [State.dispatchNorth_unknown hk]

theorem fifosTakeCountOrDiscard : Clause.FifosTakeCountOrDiscard := by
  intro s c
  refine ⟨fun hl => ?_, fun hl hroom => ?_, fun hl hfull => ?_, fun hl => ?_, fun hl hroom => ?_, fun hl hfull => ?_⟩
  · simp only [State.handNorth, hl]
  · simp only [State.handNorth, hl, if_pos hroom]
  · simp only [State.handNorth, hl, if_neg (Nat.not_lt.2 hfull), bump16]
  · simp only [State.handSouth, hl]
  · simp only [State.handSouth, hl, if_pos hroom]
  · simp only [State.handSouth, hl, if_neg (Nat.not_lt.2 hfull), bump16]

/-- Settles O12: the dispatch at either port by the cell's KIND, and a FIFO by its receiver's state and its room. -/
theorem receiversDispatchByKind : Obligations.ReceiversDispatchByKind :=
  ⟨southReceiverDispatchesByKind, northReceiverDispatchesByKind, fifosTakeCountOrDiscard⟩

end Sys2Proof.Machine

/-! ## O11: a port's return and loss -/

namespace Sys2Proof.Machine

theorem AlarmRecord.linkBack_eq (r : AlarmRecord) :
    r.linkBack = if r.phase = .sent then { r with phase := .new, resend := .stopped } else r := by
  cases h : r.phase <;> simp [AlarmRecord.linkBack, h]

theorem Loop.resync_eq (l : Loop) : l.resync = if l.state = .disabled then l else { l with pending := true } := by
  cases h : l.state <;> simp [Loop.resync, h]

/-- ALERT# stands at the north port's return: no record's ALERT changes (R66, R72). -/
theorem alertOf_linkBack (q : List AlarmRecord) : alertOf (q.map AlarmRecord.linkBack) = alertOf q := by
  refine alertOf_map (fun r => ?_) q
  unfold AlarmRecord.linkBack
  split <;> rfl

theorem alertOf_linkLost (q : List AlarmRecord) : alertOf (q.map AlarmRecord.linkLost) = alertOf q :=
  alertOf_map (f := AlarmRecord.linkLost) (fun _ => rfl) q

theorem State.enterSync_south_loops (s : State) : (s.enterSync .south).loops = mapTable Loop.resync s.loops := by
  simp [State.enterSync, State.portReturns]

/-- Settles O11: the receiver, the effects on its port and the LINK alarm, in this order, for either change at either port. -/
theorem syncChangesRaiseLinkAlarm : Obligations.SyncChangesRaiseLinkAlarm := by
  intro s
  refine ⟨?_, ?_, fun k => ?_, ?_, rfl⟩
  · rw [← funext AlarmRecord.linkBack_eq, ← alertOf_linkBack]
    rfl
  · rw [State.enterSync_south_loops]
    rfl
  · rw [State.enterSync_south_loops, mapTable_fin, Loop.resync_eq]
  · rw [← alertOf_linkLost]
    rfl

end Sys2Proof.Machine

/-! ## O52: the lines -/

namespace Sys2Proof.Machine

/-! ### What the laws of the lines look at -/

/-- The receivers' states, the FIFOs, the queues, the reserved places and the Agent's state. -/
structure Lines where
  northLink : LinkState
  southLink : LinkState
  northFifo : List Cell
  southFifo : List Cell
  requests  : List Cell
  responses : List Cell
  reserved  : Nat
  agent     : AgentState

/-- The lines of a state. -/
def State.lines (s : State) : Lines :=
  { northLink := s.north.link, southLink := s.south.link, northFifo := s.northFifo, southFifo := s.southFifo,
    requests := s.requests, responses := s.responses, reserved := s.reserved, agent := s.agent }

/-- The capacities of the FIFOs and of the request queue, and what HUNT empties: the laws that no request in the Agent's hands
suspends (R120, R121, R122, R126, R137). -/
structure Lines.Fits (l : Lines) : Prop where
  north : l.northFifo.length ≤ 32
  south : l.southFifo.length ≤ 16
  requests : l.requests.length ≤ 4
  northHunt : l.northLink = .hunt → l.northFifo = [] ∧ l.responses = []
  southHunt : l.southLink = .hunt → l.southFifo = []

/-- The places that the Agent holds: one for the COMMIT in flight (R139). -/
def AgentState.places : AgentState → Nat
  | .idle => 0
  | .committing _ => 1

/-- The laws of the lines between two happenings. -/
structure Lines.Sound (l : Lines) : Prop extends l.Fits where
  responses : l.reserved + l.responses.length ≤ 4
  reserved : l.reserved = l.agent.places

/-- The laws while a request is executed: a place is held for its response, unless a warm reset has emptied the queue
(R138, R152). -/
structure Lines.Answering (l : Lines) : Prop extends l.Fits where
  idle : l.agent = .idle
  held : l.reserved ≤ 1
  room : l.responses.length < 4

theorem State.linesSound_iff (s : State) : s.LinesSound ↔ s.lines.Sound := by
  have places : (match s.agent with | .idle => 0 | .committing _ => 1) = s.agent.places := by cases s.agent <;> rfl
  refine ⟨fun ⟨hnorth, hsouth, hrequests, hresponses, hnorthHunt, hsouthHunt, hreserved⟩ =>
      ⟨⟨hnorth, hsouth, hrequests, hnorthHunt, hsouthHunt⟩, hresponses, hreserved.trans places⟩,
    fun h => ⟨h.north, h.south, h.requests, h.responses, h.northHunt, h.southHunt, h.reserved.trans places.symm⟩⟩

/-! ### Operations that leave the lines -/

@[simp] theorem State.lines_raise (s : State) (a : Alarm) : (s.raise a).lines = s.lines := by
  simp [State.lines]

@[simp] theorem State.lines_resolveProposal (s : State) : s.resolveProposal.lines = s.lines := by
  simp [State.lines]

/-- A receiver that stays in its state. -/
theorem State.lines_withReceiver (s : State) (p : Port) {r : Receiver} (h : r.link = (s.receiver p).link) :
    (s.withReceiver p r).lines = s.lines := by
  cases p <;> simp_all [State.lines]

theorem State.lines_hitEvaluated (s : State) (n : Fin Config.channelCount) (c : Cell) :
    (s.hitEvaluated n c).lines = s.lines := by
  obtain ⟨d, -, h⟩ := (s.recorded n c).evaluated_evalSample n (s.channels[n].cfg.condition c.value)
  rw [State.hitEvaluated, h]
  rfl

theorem State.lines_deadlineExpires (s : State) (n : Fin Config.channelCount) : (s.deadlineExpires n).lines = s.lines := by
  unfold State.deadlineExpires
  dsimp only
  split
  · rfl
  · exact State.lines_raise ..

theorem State.lines_resendExpires (s : State) (seq : Nat) : (s.resendExpires seq).lines = s.lines := by
  unfold State.resendExpires
  split
  · split <;> rfl
  · rfl
  · rfl

theorem State.lines_takeStep (s : State) (k : Fin Config.loopCount) : (s.takeStep k).lines = s.lines := by
  unfold State.takeStep
  dsimp only
  split
  · rfl
  · rfl
  · unfold State.stepLoop
    dsimp only
    split
    · exact State.lines_raise ..
    · rfl

theorem State.lines_acknowledge (s : State) (n : Fin Config.channelCount) : (s.acknowledge n).lines = s.lines := by
  unfold State.acknowledge
  dsimp only
  split
  · exact State.lines_raise ..
  · rfl

/-! ### The rules of the Agent that leave the lines -/

theorem State.lines_ack (s : State) (r : Request) : (s.ack r).state.lines = s.lines := by
  have acknowledged : ∀ n, ((s.removeTripRecord n).acknowledge n).lines = s.lines := fun n => by
    rw [State.lines_acknowledge, State.removeTripRecord]
    split <;> rfl
  unfold State.ack
  split
  · unfold State.ackSeq
    split
    · rfl
    · dsimp only
      split
      · exact State.lines_acknowledge ..
      · rfl
  · split
    · unfold State.ackEntry
      split
      · exact acknowledged _
      · exact acknowledged _
      all_goals rfl
    · rfl
  all_goals rfl

theorem State.lines_manualRule (s : State) (r : Request) : (s.manualRule r).state.lines = s.lines := by
  unfold State.manualRule
  split
  · split
    · split
      · unfold State.manualLoop State.manualDone
        split
        · rfl
        all_goals split <;> rfl
      · rfl
    · rfl
  all_goals rfl

theorem State.lines_removeRule (s : State) (r : Request) : (s.removeRule r).state.lines = s.lines := by
  unfold State.removeRule
  split
  · split
    · unfold State.removeEntry
      split <;> rfl
    · rfl
  · split <;> rfl
  all_goals rfl

theorem State.lines_setPartRule (s : State) (r : Request) : (s.setPartRule r).state.lines = s.lines := by
  unfold State.setPartRule
  split
  · split
    case h_4 p _ =>
      obtain ⟨f, g, -, -, h⟩ := s.withSettings_spec p
      rw [h]
      rfl
    all_goals rfl
  all_goals rfl

theorem State.lines_clearRule (s : State) (r : Request) : (s.clearRule r).state.lines = s.lines := by
  unfold State.clearRule
  split <;> rfl

theorem State.lines_openPhase1Rule (s : State) (r : Request) : (s.openPhase1Rule r).state.lines = s.lines := by
  unfold State.openPhase1Rule
  split
  · split <;> rfl
  · rfl

theorem State.lines_editLoadRule (s : State) (r : Request) : (s.editLoadRule r).state.lines = s.lines := by
  unfold State.editLoadRule
  split
  · split <;> rfl
  · split <;> rfl
  all_goals rfl

theorem State.lines_editWritten {α : Type} (s : State) (v : Int) (load : α → EditBuffer) (w : FieldWrite α) :
    (s.editWritten v load w).state.lines = s.lines := by
  rcases s.editWritten_cases v load w with h | ⟨cfg, -, h⟩ <;> rw [h]
  rfl

theorem State.lines_editSetRule (s : State) (r : Request) : (s.editSetRule r).state.lines = s.lines := by
  unfold State.editSetRule
  split
  · exact s.lines_editWritten ..
  · exact s.lines_editWritten ..
  all_goals rfl

theorem State.lines_judge (s : State) (target : CommitTarget) : (s.judge target).state.lines = s.lines := by
  unfold State.judge
  cases target with
  | channel n cfg =>
    obtain ⟨e, q, pin, -, -, h⟩ := s.installChannel_spec n cfg
    dsimp only
    split
    · rfl
    · rw [h]
      rfl
  | loop k cfg =>
    obtain ⟨l, q, pin, -, -, h⟩ := s.installLoop_spec k cfg
    dsimp only
    split
    · rfl
    · rw [h]
      rfl

/-! ### Arrivals (R120, R121, R126, R137) -/

section
variable {s : State}

theorem Lines.Sound.handNorth (hs : s.lines.Sound) (c : Cell) : (s.handNorth c).lines.Sound := by
  unfold State.handNorth
  split
  · exact hs
  · next hsync =>
    split
    · next hroom =>
      have length : (s.northFifo ++ [c]).length ≤ 32 := by simpa using Nat.succ_le_of_lt hroom
      have inSync : s.north.link ≠ .hunt := by rw [hsync]; decide
      exact { hs with north := length, northHunt := fun hhunt => absurd hhunt inSync }
    · exact hs

theorem Lines.Sound.handSouth (hs : s.lines.Sound) (c : Cell) : (s.handSouth c).lines.Sound := by
  unfold State.handSouth
  split
  · exact hs
  · next hsync =>
    split
    · next hroom =>
      have length : (s.southFifo ++ [c]).length ≤ 16 := by simpa using Nat.succ_le_of_lt hroom
      have inSync : s.south.link ≠ .hunt := by rw [hsync]; decide
      exact { hs with south := length, southHunt := fun hhunt => absurd hhunt inSync }
    · exact hs

/-- The forward decision hands its cell north, or leaves the lines (R20). -/
theorem Lines.Sound.forward (hs : s.lines.Sound) (n : Fin Config.channelCount) (prior : ChannelState) (v : Int) (c : Cell) :
    (s.forward n prior v c).lines.Sound := by
  have sent : ∀ (f : ChannelDynamic → ChannelDynamic) (d : Cell), ((s.updateDyn n f).handNorth d).lines.Sound :=
    fun f d => Lines.Sound.handNorth (s := s.updateDyn n f) hs d
  unfold State.forward
  dsimp only
  split
  · exact hs.handNorth c
  · exact sent _ _
  · split
    · exact sent _ _
    · exact hs
  · exact hs

theorem Lines.Sound.takeHit (hs : s.lines.Sound) (n : Fin Config.channelCount) (c : Cell) : (s.takeHit n c).lines.Sound := by
  have evaluated : (((s.hitEvaluated n c).sourceSampleEvent n).updateChannel n Channel.restartDeadline).lines = s.lines :=
    s.lines_hitEvaluated n c
  exact (evaluated ▸ hs).forward n s.channels[n].dyn.state (s.channels[n].cfg.condition c.value) c

theorem Lines.Sound.classify (hs : s.lines.Sound) (c : Cell) : (s.classify c).lines.Sound := by
  rcases s.classify_cases c with ⟨-, h⟩ | ⟨n, -, -, -, h⟩ | ⟨-, -, h⟩ <;> rw [h]
  · exact hs.handNorth c
  · exact hs.takeHit n c
  · unfold State.takeMiss
    dsimp only
    split
    · exact Lines.Sound.handNorth
        (s := { s with missList := missUpdate c.key s.missList, misses := bump16 s.misses }) hs c
    · exact hs

theorem Lines.Sound.dispatch (hs : s.lines.Sound) (p : Port) (c : Cell) : (s.dispatch p c).lines.Sound := by
  rcases s.dispatch_cases p c with
    h | ⟨-, -, h⟩ | ⟨d, -, -, h⟩ | ⟨d, -, h⟩ | ⟨-, hroom, h⟩ | ⟨-, h⟩ | ⟨k, -, -, h⟩ <;> rw [h]
  · exact hs
  · exact hs.classify c
  · exact hs.handNorth d
  · exact hs.handSouth d
  · have length : (s.requests ++ [c]).length ≤ 4 := by simpa using Nat.succ_le_of_lt hroom
    exact { hs with requests := length }
  · exact hs
  · exact hs

/-- At a port's return, whatever its receiver has counted, no law asks for more in SYNC than in HUNT (R109). -/
theorem Lines.Sound.enterSync (hs : s.lines.Sound) (p : Port) (r : Receiver) :
    ((s.withReceiver p r).enterSync p).lines.Sound := by
  unfold State.enterSync
  dsimp only
  rw [State.lines_raise]
  cases p with
  | north => exact { hs with northHunt := nofun }
  | south => exact { hs with southHunt := nofun }

/-- A port's loss empties what HUNT closes; the reserved places stay (R110, R122). -/
theorem Lines.Sound.enterHunt (hs : s.lines.Sound) (p : Port) (r : Receiver) :
    ((s.withReceiver p r).enterHunt p).lines.Sound := by
  unfold State.enterHunt
  dsimp only
  rw [State.lines_raise]
  cases p with
  | north =>
    have places : s.reserved + 0 ≤ 4 := (Nat.add_le_add_left (Nat.zero_le _) _).trans hs.responses
    exact { hs with north := Nat.zero_le _, northHunt := fun _ => ⟨rfl, rfl⟩, responses := places }
  | south => exact { hs with south := Nat.zero_le _, southHunt := fun _ => rfl }

theorem Lines.Sound.takeArrival (hs : s.lines.Sound) (p : Port) (a : Arrival) : (s.takeArrival p a).lines.Sound := by
  rcases s.takeArrival_cases p a with
    ⟨r, h, hlink, -⟩ | ⟨r, h, -⟩ | ⟨r, h, -⟩ | ⟨c, -, -, -, h⟩ <;> rw [h]
  · exact s.lines_withReceiver p hlink ▸ hs
  · exact hs.enterSync p r
  · exact hs.enterHunt p r
  · have taken : (s.goodTaken p).lines = s.lines := s.lines_withReceiver p rfl
    exact Lines.Sound.dispatch (taken ▸ hs) p c

/-! ### Slots -/

/-- The oldest cell leaves the north forward FIFO (R123). -/
theorem Lines.Sound.sendForwarded (hs : s.lines.Sound) : s.sendForwarded.lines.Sound := by
  cases hfifo : s.northFifo with
  | nil =>
    rw [State.sendForwarded_of_nil hfifo]
    exact hs
  | cons c rest =>
    rw [State.sendForwarded_of_cons hfifo]
    have length : (c :: rest).length ≤ 32 := hfifo ▸ hs.north
    have inSync : s.north.link ≠ .hunt := fun hhunt => nomatch hfifo.symm.trans (hs.northHunt hhunt).1
    exact { hs with north := Nat.le_of_succ_le length, northHunt := fun hhunt => absurd hhunt inSync }

/-- The oldest response leaves its queue (R123). -/
theorem Lines.Sound.sendInserted (hs : s.lines.Sound) : s.sendInserted.lines.Sound := by
  cases hresponses : s.responses with
  | cons c rest =>
    rw [State.sendInserted_of_response hresponses]
    have places : s.reserved + (c :: rest).length ≤ 4 := hresponses ▸ hs.responses
    have inSync : s.north.link ≠ .hunt := fun hhunt => nomatch hresponses.symm.trans (hs.northHunt hhunt).2
    exact { hs with northHunt := fun hhunt => absurd hhunt inSync, responses := Nat.le_of_succ_le places }
  | nil =>
    unfold State.sendInserted
    rw [hresponses]
    dsimp only
    split
    · exact hs
    · exact hs.sendForwarded

theorem Lines.Sound.fillNorthSlot (hs : s.lines.Sound) : s.fillNorthSlot.lines.Sound := by
  unfold State.fillNorthSlot
  split
  · exact hs
  · split
    · exact hs.sendForwarded
    · exact hs.sendInserted

/-- The oldest cell leaves the south pass-through FIFO (R127). -/
theorem Lines.Sound.passSouth (hs : s.lines.Sound) {c : Cell} {rest : List Cell} (hfifo : s.southFifo = c :: rest) :
    ({ s with southFifo := rest } : State).lines.Sound := by
  have length : (c :: rest).length ≤ 16 := hfifo ▸ hs.south
  have inSync : s.south.link ≠ .hunt := fun hhunt => nomatch hfifo.symm.trans (hs.southHunt hhunt)
  exact { hs with south := Nat.le_of_succ_le length, southHunt := fun hhunt => absurd hhunt inSync }

theorem Lines.Sound.fillSouthSlot (hs : s.lines.Sound) : s.fillSouthSlot.lines.Sound := by
  unfold State.fillSouthSlot
  split
  · exact hs
  · split
    · next hfifo _ =>
      unfold State.contended
      split
      · exact hs
      · exact hs.passSouth hfifo
    · next hfifo _ => exact hs.passSouth hfifo
    · exact hs
    · exact hs

/-! ### Requests (R122, R138, R139) -/

/-- A request that is taken leaves its queue and holds a place for its response. -/
theorem Lines.Sound.taken (hs : s.lines.Sound) {c : Cell} {rest : List Cell} (hidle : s.agent = .idle)
    (hqueue : s.requests = c :: rest) (hplace : s.reserved + s.responses.length < 4) :
    s.reserved = 0 ∧ ({ s with requests := rest, reserved := s.reserved + 1 } : State).lines.Answering := by
  have none : s.reserved = 0 := hs.reserved.trans (congrArg AgentState.places hidle)
  have length : (c :: rest).length ≤ 4 := hqueue ▸ hs.requests
  exact ⟨none, { hs with
    requests := Nat.le_of_succ_le length
    idle := hidle
    held := by simp [State.lines, none]
    room := (Nat.le_add_left ..).trans_lt hplace }⟩

/-- The completion gives the place back, with the response in it unless HUNT discards it. -/
theorem Lines.Answering.complete (hs : s.lines.Answering) (c : Cell) (reply : Reply) : (s.complete c reply).lines.Sound := by
  have none : s.reserved - 1 = 0 := Nat.sub_eq_zero_of_le hs.held
  have places : s.reserved - 1 = s.agent.places := none.trans (congrArg AgentState.places hs.idle).symm
  have timer : (s.complete c reply).lines = (s.placeResponse (responseCell c reply)).lines := by
    simp [State.complete, State.lines]
  rw [timer, State.placeResponse]
  split
  · exact { hs with responses := by simpa [State.lines, none] using Nat.le_of_lt hs.room, reserved := places }
  · next hsync =>
    have inSync : s.north.link ≠ .hunt := by rw [hsync]; decide
    exact { hs with
      northHunt := fun hhunt => absurd hhunt inSync
      responses := by simpa [State.lines, none] using Nat.succ_le_of_lt hs.room
      reserved := places }

theorem Lines.Answering.resolveProposal (hs : s.lines.Answering) : s.resolveProposal.lines.Answering :=
  s.lines_resolveProposal ▸ hs

theorem Lines.Answering.takePhase2 (hs : s.lines.Answering) (c : Cell) (r : Request) : (s.takePhase2 c r).lines.Sound := by
  unfold State.takePhase2
  split
  · exact Lines.Answering.complete (s := s.openSession) hs c _
  · exact hs.resolveProposal.complete c _

theorem Lines.Answering.takeClose (hs : s.lines.Answering) (c : Cell) (r : Request) : (s.takeClose c r).lines.Sound := by
  unfold State.takeClose
  split
  · exact Lines.Answering.complete (s := s.closeSession) hs c _
  · exact Lines.Answering.complete (s := s.dropProposal) hs c _
  · exact hs.complete c _

/-- A COMMIT that passes its screening keeps its place while it is in flight (R139, R165). -/
theorem Lines.Answering.takeCommit (hs : s.lines.Answering) (hplace : s.reserved = 1) (c : Cell) (r : Request) :
    (s.takeCommit c r).lines.Sound := by
  have resolved := hs.resolveProposal
  unfold State.takeCommit
  dsimp only
  split
  · exact resolved.complete c _
  · split
    · exact resolved.complete c _
    · have held : s.resolveProposal.reserved = 1 := (congrArg Lines.reserved s.lines_resolveProposal).trans hplace
      have places : 1 + s.resolveProposal.responses.length ≤ 4 := Nat.one_add_le_iff.2 resolved.room
      exact { resolved with responses := held ▸ places, reserved := held }

/-- The end of the scan completes the COMMIT in flight, refused or installed (R169). -/
theorem Lines.Sound.endScan (hs : s.lines.Sound) {c : Cell} (hflight : s.agent = .committing c) :
    (s.endScan c).lines.Sound := by
  have one : s.reserved = 1 := hs.reserved.trans (congrArg AgentState.places hflight)
  have ended : ∀ t : State, t.lines = s.lines → ({ t with agent := .idle } : State).lines.Answering := by
    intro t ht
    have room : 1 + s.responses.length ≤ 4 := one ▸ hs.responses
    have before : ({ s with agent := .idle } : State).lines.Answering :=
      { hs with idle := rfl, held := one.le, room := Nat.one_add_le_iff.1 room }
    have same : ({ t with agent := .idle } : State).lines = ({ s with agent := .idle } : State).lines :=
      congrArg (fun l : Lines => { l with agent := .idle }) ht
    exact same ▸ before
  unfold State.endScan
  split
  · exact (ended s rfl).complete c _
  · next target _ => exact (ended _ (s.lines_judge target)).complete c _

theorem Lines.Sound.takeRequest (hs : s.lines.Sound) {row : RequestRow} {execute : State → Cell → Request → State}
    (h : ∀ b c r, b.lines.Answering → b.reserved = 1 → (execute b c r).lines.Sound) :
    (s.takeRequest row execute).lines.Sound := by
  rcases s.takeRequest_cases row execute with ht | ⟨c, rest, hidle, hqueue, hplace, -, ht⟩ <;> rw [ht]
  · exact hs
  · obtain ⟨none, answering⟩ := hs.taken hidle hqueue hplace
    exact h _ c _ answering (congrArg (· + 1) none)

theorem Lines.Sound.takeAndServe (hs : s.lines.Sound) {row : RequestRow} {g : Gates} {rule : State → Request → Answer}
    (h : ∀ b r, b.lines.Answering → (rule b r).state.lines.Answering) : (s.takeAndServe row g rule).lines.Sound := by
  refine hs.takeRequest fun b c r hb _ => ?_
  have resolved := hb.resolveProposal
  unfold State.serve
  dsimp only
  split
  · exact resolved.complete c _
  · exact (h _ r resolved).complete c _

/-- A rule that leaves the lines. -/
theorem Lines.Sound.takeAndServe_of_lines (hs : s.lines.Sound) {row : RequestRow} {g : Gates}
    {rule : State → Request → Answer} (h : ∀ b r, (rule b r).state.lines = b.lines) :
    (s.takeAndServe row g rule).lines.Sound :=
  hs.takeAndServe fun b r hb => h b r ▸ hb

end

/-! ### Resets -/

/-- Either reset leaves every FIFO and queue empty and the Agent IDLE. -/
structure Lines.Emptied (l : Lines) : Prop where
  north : l.northFifo = []
  south : l.southFifo = []
  requests : l.requests = []
  responses : l.responses = []
  reserved : l.reserved = 0
  idle : l.agent = .idle

theorem Lines.Emptied.fits {l : Lines} (h : l.Emptied) : l.Fits where
  north := by simp [h.north]
  south := by simp [h.south]
  requests := by simp [h.requests]
  northHunt _ := ⟨h.north, h.responses⟩
  southHunt _ := h.south

theorem Lines.Emptied.sound {l : Lines} (h : l.Emptied) : l.Sound :=
  { h.fits with responses := by simp [h.reserved, h.responses], reserved := by rw [h.reserved, h.idle]; rfl }

theorem Lines.Emptied.answering {l : Lines} (h : l.Emptied) : l.Answering :=
  { h.fits with idle := h.idle, held := by simp [h.reserved], room := by simp [h.responses] }

/-- A warm reset brings the Agent to IDLE whatever it was at (R133, R154). -/
theorem State.emptied_warmReset (s : State) : s.warmReset.lines.Emptied := ⟨rfl, rfl, rfl, rfl, rfl, rfl⟩

theorem State.emptied_coldCondition (s : State) : s.coldCondition.lines.Emptied := ⟨rfl, rfl, rfl, rfl, rfl, rfl⟩

section
variable {s t : State}

theorem Lines.Sound.coldReset {edge : ColdEdge} (hs : s.lines.Sound) (h : execColdReset edge s = .next t) :
    t.lines.Sound := by
  have cold := s.emptied_coldCondition.sound
  unfold execColdReset at h
  cases edge with
  | resetFalls | powerUpBegins =>
    cases h
    exact cold
  | resetRises | powerUpEnds =>
    cases h
    split
    · exact cold
    · exact hs

theorem Lines.Sound.restartEdge {edge : RestartEdge} (hs : s.lines.Sound) (h : execWarmReset edge s = .next t) :
    t.lines.Sound := by
  have warm := ({ s with restartLow := true } : State).emptied_warmReset.sound
  unfold execWarmReset at h
  cases edge with
  | rises =>
    cases h
    exact hs
  | falls heldLowNs =>
    cases h
    split
    · exact hs
    · split
      · exact hs
      · unfold State.restartFalls
        dsimp only
        split
        · exact warm
        · split
          · exact warm
          · exact hs

/-! ### Every command and every step -/

theorem Lines.Sound.happening {effect : State → State} (hs : s.lines.Sound) (h : happening s effect = .next t)
    (he : (effect s).lines.Sound) : t.lines.Sound := by
  rcases happening_cases h with ⟨-, rfl⟩ | ⟨-, rfl⟩
  · exact hs
  · exact he

/-- No expiry of a timer touches the lines. -/
theorem Lines.Sound.expiry {due : State → Bool} {effect : State → State} (hs : s.lines.Sound)
    (h : expiry s due effect = .next t) (he : (effect s).lines = s.lines) : t.lines.Sound := by
  rcases expiry_cases h with rfl | ⟨-, rfl⟩
  · exact hs
  · exact he ▸ hs

/-- Every command keeps the laws of the lines. -/
theorem Lines.Sound.exec {i : Instr} (hs : s.lines.Sound) (h : exec i s = .next t) : t.lines.Sound := by
  unfold Machine.exec at h
  cases i with
  | coldReset edge => exact hs.coldReset h
  | warmReset edge => exact hs.restartEdge h
  | arrival p a => exact hs.happening h (hs.takeArrival p a)
  | northSlot => exact hs.happening h hs.fillNorthSlot
  | southSlot => exact hs.happening h hs.fillSouthSlot
  | deadlineExpiry n => exact hs.expiry h (s.lines_deadlineExpires n)
  | resendTimerExpiry seq => exact hs.happening h (s.lines_resendExpires seq ▸ hs)
  | step k => exact hs.expiry h (s.lines_takeStep k)
  | forwardRefreshExpiry | stopTimerExpiry | refreshTimerExpiry | proposalTimerExpiry | sessionTimerExpiry =>
    exact hs.expiry h rfl
  | read | unknownRequest | freeze => exact hs.happening h (hs.takeAndServe_of_lines fun _ _ => rfl)
  | openPhase1 => exact hs.happening h (hs.takeAndServe_of_lines State.lines_openPhase1Rule)
  | openPhase2 => exact hs.happening h (hs.takeRequest fun _ c r hb _ => hb.takePhase2 c r)
  | close => exact hs.happening h (hs.takeRequest fun _ c r hb _ => hb.takeClose c r)
  | editLoad => exact hs.happening h (hs.takeAndServe_of_lines State.lines_editLoadRule)
  | editSet => exact hs.happening h (hs.takeAndServe_of_lines State.lines_editSetRule)
  | commit => exact hs.happening h (hs.takeRequest fun _ c r hb hplace => hb.takeCommit hplace c r)
  | endOfScan =>
    refine hs.happening h ?_
    split
    · next hflight => exact hs.endScan hflight
    · exact hs
  | removeChannel | removeLoop => exact hs.happening h (hs.takeAndServe_of_lines State.lines_removeRule)
  | setPart => exact hs.happening h (hs.takeAndServe_of_lines State.lines_setPartRule)
  | ackAlarm | ackChannel => exact hs.happening h (hs.takeAndServe_of_lines State.lines_ack)
  | manual | manualRelease => exact hs.happening h (hs.takeAndServe_of_lines State.lines_manualRule)
  | clearMiss | clearPart => exact hs.happening h (hs.takeAndServe_of_lines State.lines_clearRule)
  | restart => exact hs.happening h (hs.takeAndServe fun b _ _ => b.emptied_warmReset.answering)

/-- Time alone does not touch the lines (R177). -/
theorem State.lines_idle (s : State) : s.idle.lines = s.lines := by
  unfold State.idle
  split
  · rfl
  · split <;> rfl

end

/-- Settles O52: a cell enters a FIFO or queue only where there is room and leaves it by a slot or a taking; a port's loss empties
what HUNT closes; a place is reserved by a taking and given back by its completion, at once or at the end of the scan. -/
theorem stepKeepsLinesSound : Obligations.StepKeepsLinesSound := by
  intro s t hs h
  have sound : s.lines.Sound := s.linesSound_iff.1 hs
  refine t.linesSound_iff.2 ?_
  unfold step at h
  split at h
  · next i rest _ =>
    have before : ({ s with pending := rest } : State).lines.Sound := sound
    exact before.exec h
  · cases h
    exact s.lines_idle ▸ sound

end Sys2Proof.Machine

/-! ## O13: the actuator guard -/

namespace Sys2Proof.Machine

theorem LoopState.guarded_iff (st : LoopState) : st.guarded = true ↔ st ≠ .disabled ∧ st ≠ .manual := by
  cases st <;> simp [LoopState.guarded]

theorem State.dispatchNorth_command {s : State} {c : Cell} (h : c.kind = 2) : s.dispatchNorth c = s.guard c := by
  simp only [State.dispatchNorth, h]

section
variable {s : State}

/-- Where no two loops outside DISABLED share an actuator key, the guarded loop of a key is the one loop that guards it (R77). -/
theorem State.guardingLoop_of_distinct (hs : s.ActuatorsDistinct) {k : Fin Config.loopCount}
    (hdisabled : s.loops[k].state ≠ .disabled) (hmanual : s.loops[k].state ≠ .manual) :
    s.guardingLoop s.loops[k].cfg.actKey = some k := by
  obtain ⟨distinct, -⟩ := hs
  refine State.findLoop_of_unique fun j => ?_
  rw [Bool.and_eq_true, beq_iff_eq, LoopState.guarded_iff]
  constructor
  · rintro ⟨⟨hj, -⟩, hkey⟩
    exact distinct j k hj hdisabled hkey
  · rintro rfl
    exact ⟨⟨hdisabled, hmanual⟩, rfl⟩

theorem State.guardingLoop_eq_none {key : Key}
    (h : ∀ k : Fin Config.loopCount, s.loops[k].state ≠ .disabled → s.loops[k].state ≠ .manual →
      key ≠ s.loops[k].cfg.actKey) : s.guardingLoop key = none := by
  refine State.findLoop_eq_none.2 fun k => Bool.eq_false_iff.2 fun hk => ?_
  rw [Bool.and_eq_true, beq_iff_eq, LoopState.guarded_iff] at hk
  obtain ⟨⟨hdisabled, hmanual⟩, hkey⟩ := hk
  exact h k hdisabled hmanual hkey.symm

theorem State.guard_of_guarding {c : Cell} {k : Fin Config.loopCount} (h : s.guardingLoop c.key = some k) :
    s.guard c = s.updateLoop k Loop.countGuard := by
  simp only [State.guard, h]

theorem State.guard_of_none {c : Cell} (h : s.guardingLoop c.key = none) : s.guard c = s.handSouth c := by
  simp only [State.guard, h]

end

/-- Settles O13: a good COMMAND reaches the guard, which finds the one loop of its key outside DISABLED and MANUAL, or none. -/
theorem actuatorGuardKeepsCommands : Obligations.ActuatorGuardKeepsCommands := by
  intro s c h hdistinct
  have ⟨_, _, _, hkind⟩ := h
  have guarded : exec (.arrival .north (.cell c)) s = .next ((s.goodTaken .north).guard c) :=
    (exec_dispatched h).trans (congrArg _ (State.dispatchNorth_command hkind))
  have taken : (s.goodTaken .north).ActuatorsDistinct := hdistinct
  refine ⟨fun k hdisabled hmanual hkey => ?_, fun hnone => ?_⟩ <;> rw [guarded]
  · have found : (s.goodTaken .north).guardingLoop c.key = some k :=
      (congrArg _ hkey).trans (State.guardingLoop_of_distinct taken hdisabled hmanual)
    rw [State.guard_of_guarding found]
    rfl
  · have notFound : (s.goodTaken .north).guardingLoop c.key = none := State.guardingLoop_eq_none hnone
    rw [State.guard_of_none notFound]

end Sys2Proof.Machine

/-! ## O25: the south slot -/

namespace Sys2Proof.Machine

section
variable {s : State}

/-! ### The loop served (R128) -/

/-- Loop `k` is the lowest pending one above the last served, or else the lowest pending one. -/
def State.NextServed (s : State) (k : Fin Config.loopCount) : Prop :=
  s.loops[k].pending = true
    ∧ ((s.lastServed < k
        ∧ ∀ j : Fin Config.loopCount, s.lastServed < j → j < k → s.loops[j].pending = false)
      ∨ ((∀ j : Fin Config.loopCount, s.lastServed < j → s.loops[j].pending = false)
        ∧ ∀ j : Fin Config.loopCount, j < k → s.loops[j].pending = false))

theorem State.findLoop_above_eq_none (h : ∀ j : Fin Config.loopCount, s.lastServed < j → s.loops[j].pending = false) :
    s.findLoop (fun k l => decide (s.lastServed < k) && l.pending) = none :=
  State.findLoop_eq_none.2 fun j => Bool.and_eq_false_imp.2 fun hj => h j (of_decide_eq_true hj)

theorem State.findLoop_above_eq_some {k : Fin Config.loopCount} (hpending : s.loops[k].pending = true)
    (habove : s.lastServed < k) (h : ∀ j : Fin Config.loopCount, s.lastServed < j → j < k → s.loops[j].pending = false) :
    s.findLoop (fun k l => decide (s.lastServed < k) && l.pending) = some k :=
  State.findLoop_eq_some.2 ⟨Bool.and_eq_true_iff.2 ⟨decide_eq_true habove, hpending⟩,
    fun j hj => Bool.and_eq_false_imp.2 fun hserved => h j (of_decide_eq_true hserved) hj⟩

theorem State.loopToServe_of_nextServed {k : Fin Config.loopCount} (h : s.NextServed k) : s.loopToServe = some k := by
  obtain ⟨hpending, ⟨habove, hbetween⟩ | ⟨hnone, hbelow⟩⟩ := h
  · simp only [State.loopToServe, State.findLoop_above_eq_some hpending habove hbetween]
  · simp only [State.loopToServe, State.findLoop_above_eq_none hnone]
    exact State.findLoop_eq_some.2 ⟨hpending, hbelow⟩

theorem State.loopToServe_of_nonePending (h : ∀ k : Fin Config.loopCount, s.loops[k].pending = false) :
    s.loopToServe = none := by
  simp only [State.loopToServe, State.findLoop_above_eq_none fun j _ => h j]
  exact State.findLoop_eq_none.2 h

/-- The serving stops the loop pending, starts its refresh timer and sends its COMMAND (R93, R94). -/
theorem State.serveLoop_eq (s : State) (k : Fin Config.loopCount) :
    s.serveLoop k =
      { s with
        loops := s.loops.set k { s.loops[k] with pending := false, refreshTimer := orStopped s.loops[k].cfg.refresh }
        lastServed := k, southSent := some (s.loops[k].commandCell k) } := by
  rw [← startUnlessZero_eq_orStopped]
  rfl

/-! ### The slot (R127) -/

theorem State.fillSouthSlot_of_hunt (h : s.south.link = .hunt) : s.fillSouthSlot = { s with southSent := some fillCell } := by
  simp only [State.fillSouthSlot, h]
  rfl

theorem State.fillSouthSlot_contended (h : s.south.link = .sync) {c : Cell} {rest : List Cell} {k : Fin Config.loopCount}
    (hfifo : s.southFifo = c :: rest) (hloop : s.loopToServe = some k) : s.fillSouthSlot = s.contended c rest k := by
  simp only [State.fillSouthSlot, h, hfifo, hloop]

theorem State.fillSouthSlot_passThrough (h : s.south.link = .sync) {c : Cell} {rest : List Cell}
    (hfifo : s.southFifo = c :: rest) (hloop : s.loopToServe = none) :
    s.fillSouthSlot = { s with southFifo := rest, southSent := some c } := by
  simp only [State.fillSouthSlot, h, hfifo, hloop]
  rfl

theorem State.fillSouthSlot_loop (h : s.south.link = .sync) {k : Fin Config.loopCount} (hfifo : s.southFifo = [])
    (hloop : s.loopToServe = some k) : s.fillSouthSlot = s.serveLoop k := by
  simp only [State.fillSouthSlot, h, hfifo, hloop]

theorem State.fillSouthSlot_idle (h : s.south.link = .sync) (hfifo : s.southFifo = []) (hloop : s.loopToServe = none) :
    s.fillSouthSlot = { s with southSent := some fillCell } := by
  have sent : s.fillSouthSlot = s.sendSouth fillCell := by simp only [State.fillSouthSlot, h, hfifo, hloop]
  exact sent

/-- The loops win after the FIFO. -/
theorem State.contended_of_passThrough (h : s.lastWinner = .passThrough) (c : Cell) (rest : List Cell)
    (k : Fin Config.loopCount) : s.contended c rest k = { s.serveLoop k with lastWinner := .loops } := by
  simp only [State.contended, h]
  rfl

/-- The FIFO wins after the loops. -/
theorem State.contended_of_loops (h : s.lastWinner = .loops) (c : Cell) (rest : List Cell) (k : Fin Config.loopCount) :
    s.contended c rest k = { s with southFifo := rest, southSent := some c, lastWinner := .passThrough } := by
  simp only [State.contended, h]
  rfl

end

/-- Settles O25: the five cases of the slot by what the FIFO and the loops want, and the search for the loop to serve. -/
theorem southSlotSharesFairly : Obligations.SouthSlotSharesFairly := by
  intro s hcold serve isNext nonePending
  have ran : exec .southSlot s = .next s.fillSouthSlot := happening_of_running hcold _
  have found : ∀ k, isNext k → s.loopToServe = some k := fun k hk => State.loopToServe_of_nextServed hk
  have notFound : nonePending → s.loopToServe = none := State.loopToServe_of_nonePending
  have served : ∀ k, s.serveLoop k = serve k := s.serveLoop_eq
  rw [ran]
  refine ⟨fun hhunt => ?_, fun hsync => ⟨fun c rest hfifo => ⟨fun k hk hwinner => ?_, ?_, fun hnone => ?_⟩,
    fun hempty => ⟨fun k hk => ?_, fun hnone => ?_⟩⟩⟩
  · rw [State.fillSouthSlot_of_hunt hhunt]
  · rw [State.fillSouthSlot_contended hsync hfifo (found k hk), State.contended_of_passThrough hwinner, served]
  · rintro ⟨k, hk⟩ hwinner
    rw [State.fillSouthSlot_contended hsync hfifo (found k hk), State.contended_of_loops hwinner]
  · rw [State.fillSouthSlot_passThrough hsync hfifo (notFound hnone)]
  · rw [State.fillSouthSlot_loop hsync hempty (found k hk), served]
  · rw [State.fillSouthSlot_idle hsync hempty (notFound hnone)]

end Sys2Proof.Machine

/-! ## O32, O33: the taking of a request -/

namespace Sys2Proof.Machine

/-- The gates a row's requests pass (R141). -/
def RequestRow.gates : RequestRow → Gates
  | .read | .unknownRequest | .openPhase1 | .openPhase2 | .close | .ackAlarm | .ackChannel => .free
  | .editLoad | .editSet | .manual | .manualRelease | .clearMiss | .clearPart | .restart | .freeze => .session
  | .commit | .removeChannel | .removeLoop | .setPart => .table

/-- A COMMIT that gate 3 or 4 refuses is completed with that status (R141). -/
theorem State.takeCommit_of_refused {s : State} {st : Status} (h : Gates.table.refusal s.pastGateOne = some st) (c : Cell)
    (r : Request) : s.takeCommit c r = s.pastGateOne.complete c (.plain st) := by
  simp only [State.takeCommit, State.resolveProposal_eq, h]

/-- Each taking of the Agent takes its own row's request, and completes one that the row's gates refuse with their status
(R138, R141). -/
theorem exec_taking {i : Instr} {row : RequestRow} (h : i.row = some row) :
    ∃ execute, (∀ s, exec i s = happening s (fun s => s.takeRequest row execute))
      ∧ ∀ s c r st, row.gates.refusal s.pastGateOne = some st →
        execute s c r = s.pastGateOne.complete c (.plain st) := by
  cases i with
  | commit =>
    cases h
    exact ⟨_, fun _ => rfl, fun _ c r _ hs => State.takeCommit_of_refused hs c r⟩
  | openPhase2 | close =>
    cases h
    exact ⟨_, fun _ => rfl, fun _ _ _ _ hs => nomatch hs⟩
  | read | unknownRequest | openPhase1 | editLoad | editSet | removeChannel | removeLoop | setPart | ackAlarm | ackChannel
  | manual | manualRelease | clearMiss | clearPart | restart | freeze =>
    cases h
    exact ⟨_, fun _ => rfl, fun _ _ _ _ hs => State.serve_of_refused hs _⟩
  | _ => cases h

/-! ### Requests that are not taken -/

/-- A happening whose effect changes nothing changes nothing, on a part held in cold reset too. -/
theorem happening_of_unchanged {s : State} {effect : State → State} (h : effect s = s) : happening s effect = .next s := by
  rw [happening, h, ite_self]

/-- A taking without its conditions, or by a row that does not take the oldest request, changes nothing (R138, log 1). -/
theorem exec_of_notTaken {s : State} {i : Instr} {row : RequestRow} (hi : i.row = some row)
    (h : ∀ c rest, s.agent = .idle → s.requests = c :: rest → s.reserved + s.responses.length < 4 →
      row.takes (Request.ofCell c) = false) : exec i s = .next s := by
  obtain ⟨execute, ran, -⟩ := exec_taking hi
  rw [ran]
  refine happening_of_unchanged ?_
  rcases s.takeRequest_cases row execute with unchanged | ⟨c, rest, hidle, hrequests, hplace, htakes, -⟩
  · exact unchanged
  · rw [h c rest hidle hrequests hplace] at htakes
    cases htakes

theorem noTakingWithoutItsConditions : Clause.NoTakingWithoutItsConditions := by
  intro s i hi h
  obtain ⟨row, hrow⟩ := Option.ne_none_iff_exists'.1 hi
  refine exec_of_notTaken hrow fun c rest hidle hrequests hplace => ?_
  rcases h with hbusy | hempty | hfull
  · exact absurd hidle hbusy
  · rw [hempty] at hrequests
    cases hrequests
  · omega

theorem noRowTakesAnotherRowsRequest : Clause.NoRowTakesAnotherRowsRequest := by
  intro s i row c rest hrow hrequests htakes
  refine exec_of_notTaken hrow fun c' rest' _ hrequests' _ => ?_
  rw [hrequests] at hrequests'
  cases hrequests'
  exact htakes

/-! ### The rows by code and selector (R135, R184) -/

theorem spaceOfNumber_eq_part {n : Nat} : spaceOfNumber n = some .part ↔ n = 3 := by
  unfold spaceOfNumber; split <;> simp_all

theorem spaceOfNumber_eq_miss {n : Nat} : spaceOfNumber n = some .miss ↔ n = 4 := by
  unfold spaceOfNumber; split <;> simp_all

section
variable (c : Cell)

@[simp] theorem Request.ofCell_op : (Request.ofCell c).op = c.op := rfl
@[simp] theorem Request.ofCell_space : (Request.ofCell c).space = spaceOfNumber c.space := rfl
@[simp] theorem Request.ofCell_entry : (Request.ofCell c).entry = c.b1.toNat := rfl
@[simp] theorem Request.ofCell_aux : (Request.ofCell c).aux = c.b6.toNat := rfl
@[simp] theorem Request.ofCell_value : (Request.ofCell c).value = c.value := rfl

end

theorem rowsTakeByCodeAndSelector : Clause.RowsTakeByCodeAndSelector := by
  intro c
  simp only [RequestRow.takes, Bool.or_eq_true, beq_iff_eq, decide_eq_true_eq]
  simp [spaceOfNumber_eq_channel, spaceOfNumber_eq_loop, spaceOfNumber_eq_part, spaceOfNumber_eq_miss,
    spaceOfNumber_eq_alarm]

theorem noScanEndsWithoutCommit : Clause.NoScanEndsWithoutCommit := by
  intro s hidle
  have ran : exec .endOfScan s = happening s (fun s => match s.agent with
    | .committing c => s.endScan c
    | .idle => s) := rfl
  rw [ran]
  refine happening_of_unchanged ?_
  simp only [hidle]

/-- Settles O32: a taking happens only on its conditions and by the row of the request, and a scan ends only for a COMMIT in
flight. -/
theorem nothingIsTakenOutOfTurn : Obligations.NothingIsTakenOutOfTurn :=
  ⟨noTakingWithoutItsConditions, noRowTakesAnotherRowsRequest, rowsTakeByCodeAndSelector, noScanEndsWithoutCommit⟩

/-! ### Requests that are refused at gates 3 and 4 (R141) -/

/-- Gate 1 does not see the place reserved for a response. -/
theorem State.pastGateOne_taken (s : State) (rest : List Cell) : (s.taken rest).pastGateOne = (s.atRule rest).reserving := by
  unfold State.taken State.atRule State.pastGateOne State.reserving
  dsimp only
  split <;> rfl

/-- In an OPEN session gate 1 leaves the part as it was. -/
theorem State.atRule_of_opened {s : State} (h : s.session = .opened) (rest : List Cell) :
    s.atRule rest = { s with requests := rest } :=
  State.pastGateOne_of_opened (s := { s with requests := rest }) h

/-- After gate 1 the session is OPEN exactly when it was OPEN before. -/
theorem State.atRule_session_ne_opened {s : State} (h : s.session ≠ .opened) (rest : List Cell) :
    (s.atRule rest).session ≠ .opened := by
  unfold State.atRule State.pastGateOne
  dsimp only
  split
  · nofun
  · exact h

section
variable {row : RequestRow} {c : Cell}

/-- The codes 1 to 13 are known (R184). -/
theorem RequestRow.not_takes_unknownRequest (hop : 1 ≤ c.op ∧ c.op ≤ 13) :
    ¬RequestRow.unknownRequest.takes (Request.ofCell c) = true := by
  obtain ⟨unknown, -⟩ := rowsTakeByCodeAndSelector c
  exact fun h => by have := unknown.1 h; omega

/-- The requests that need an OPEN session (R141). -/
theorem RequestRow.gates_needsOpen (h : row.takes (Request.ofCell c) = true)
    (hop : 4 ≤ c.op ∧ c.op ≤ 8 ∨ 10 ≤ c.op ∧ c.op ≤ 13) : row.gates.needsOpen = true := by
  cases row with
  | unknownRequest => exact absurd h (RequestRow.not_takes_unknownRequest (by omega))
  | read | openPhase1 | openPhase2 | close | ackAlarm | ackChannel =>
    simp only [RequestRow.takes, Bool.and_eq_true, beq_iff_eq, Request.ofCell_op] at h
    omega
  | _ => rfl

/-- The requests that are refused while frozen (R141). -/
theorem RequestRow.gates_eq_table (h : row.takes (Request.ofCell c) = true) (hop : c.op = 6 ∨ c.op = 7 ∨ c.op = 8) :
    row.gates = .table := by
  cases row with
  | unknownRequest => exact absurd h (RequestRow.not_takes_unknownRequest (by omega))
  | commit | removeChannel | removeLoop | setPart => rfl
  | _ =>
    simp only [RequestRow.takes, Bool.and_eq_true, beq_iff_eq, Request.ofCell_op] at h
    omega

end

section
variable {s : State} {i : Instr} {row : RequestRow} {c : Cell} {rest : List Cell}

/-- A request that is taken and refused at gate 3 or 4 gets the gate's status, and gives the reserved place back (R139). -/
theorem exec_of_refused (h : s.CanTake c rest) (hi : i.row = some row) (hr : row.takes (Request.ofCell c) = true)
    {st : Status} (hgate : row.gates.refusal (s.atRule rest) = some st) :
    exec i s = .next ((s.atRule rest).answered c (.plain st)) := by
  obtain ⟨execute, ran, refused⟩ := exec_taking hi
  have past := s.pastGateOne_taken rest
  have status : row.gates.refusal (s.taken rest).pastGateOne = some st := past ▸ hgate
  rw [ran, happening_of_running h.1, State.takeRequest_of_canTake h hr, ← State.complete_reserving, ← past]
  exact congrArg _ (refused (s.taken rest) c _ st status)

end

/-- Settles O33: gate 3 refuses outside OPEN, and gate 4 refuses COMMIT, REMOVE and SET_PART of a frozen part. -/
theorem gatesRefuseWithoutEffect : Obligations.GatesRefuseWithoutEffect := by
  intro s i row c rest h hi hr
  refine ⟨fun hop hclosed => ?_, fun hop hopen hfrozen => ?_⟩
  · refine exec_of_refused h hi hr ?_
    simp [Gates.refusal, RequestRow.gates_needsOpen hr hop, State.atRule_session_ne_opened hclosed]
  · rw [← State.atRule_of_opened hopen]
    refine exec_of_refused h hi hr ?_
    simp [Gates.refusal, Gates.table, RequestRow.gates_eq_table hr hop, State.atRule_of_opened hopen, hopen, hfrozen]

end Sys2Proof.Machine

/-! ## O34: READ and the unknown codes -/

namespace Sys2Proof.Machine

/-! ### The serving of a request (R138 to R141) -/

section
variable {s t : State} {i : Instr} {row : RequestRow} {g : Gates} {rule : State → Request → Answer} {c : Cell}
  {rest : List Cell} {reply : Reply}

/-- A request that is taken and passes its gates is completed with its rule's answer (R139). -/
theorem exec_of_passed (h : s.CanTake c rest) (ran : ∀ s, exec i s = happening s (fun s => s.takeAndServe row g rule))
    (hr : row.takes (Request.ofCell c) = true) (hgate : g.refusal (s.atRule rest) = none) {answer : Answer}
    (hrule : rule (s.atRule rest).reserving (Request.ofCell c) = answer) :
    exec i s = .next (answer.state.complete c answer.reply) := by
  have past := s.pastGateOne_taken rest
  have passed : g.refusal (s.taken rest).pastGateOne = none := past ▸ hgate
  rw [ran, happening_of_running h.1, State.takeAndServe, State.takeRequest_of_canTake h hr]
  refine congrArg _ ((State.serve_of_passed (s := s.taken rest) passed rule).trans ?_)
  rw [past, hrule]

/-- A rule that leaves the reserved place gives it back at the completion. -/
theorem exec_of_served (h : s.CanTake c rest) (ran : ∀ s, exec i s = happening s (fun s => s.takeAndServe row g rule))
    (hr : row.takes (Request.ofCell c) = true) (hgate : g.refusal (s.atRule rest) = none)
    (hrule : rule (s.atRule rest).reserving (Request.ofCell c) = { state := t.reserving, reply := reply }) :
    exec i s = .next (t.answered c reply) := by
  rw [exec_of_passed h ran hr hgate hrule, State.complete_reserving]

/-- In an OPEN session the rule finds the part with the request taken and a place reserved for its response. -/
theorem exec_of_served_opened (h : s.CanTake c rest) (hopen : s.session = .opened)
    (ran : ∀ s, exec i s = happening s (fun s => s.takeAndServe row g rule))
    (hr : row.takes (Request.ofCell c) = true) (hfrozen : g.refusedFrozen = true → s.frozen = false)
    (hrule : rule (s.taken rest) (Request.ofCell c) = { state := t.reserving, reply := reply }) :
    exec i s = .next (t.answered c reply) := by
  have passed : g.refusal (s.atRule rest) = none := by
    rw [State.atRule_of_opened hopen]
    cases hg : g.refusedFrozen
    · simp [Gates.refusal, hopen, hg]
    · simp [Gates.refusal, hopen, hfrozen hg]
  exact exec_of_served h ran hr passed (by rw [State.atRule_of_opened hopen]; exact hrule)

end

/-! ### The requests that only answer -/

/-- What READ answers depends neither on the requests that wait nor on the place reserved. -/
theorem State.readReply_atRule (s : State) (rest : List Cell) (r : Request) :
    (s.atRule rest).reserving.readReply r = s.pastGateOne.readReply r := by
  rw [State.atRule_eq]
  rfl

theorem readChangesNothing : Clause.ReadChangesNothing := by
  intro s c rest h hop
  have takes : RequestRow.read.takes (Request.ofCell c) = true := by simp [RequestRow.takes, hop]
  refine exec_of_served h (t := s.atRule rest) (fun _ => rfl) takes rfl ?_
  rw [State.answer, State.readReply_atRule]

theorem unknownCodeIsAnswered : Clause.UnknownCodeIsAnswered := by
  intro s c rest h hop
  obtain ⟨unknown, -⟩ := rowsTakeByCodeAndSelector c
  exact exec_of_served h (t := s.atRule rest) (fun _ => rfl) (unknown.2 hop) rfl rfl

/-- Settles O34: READ and an unknown code pass every gate, and their rules have no effect. -/
theorem readAndUnknownCodeAnswer : Obligations.ReadAndUnknownCodeAnswer :=
  ⟨readChangesNothing, unknownCodeIsAnswered⟩

end Sys2Proof.Machine

/-! ## O35: the answers of READ -/

namespace Sys2Proof.Machine

/-! ### The check of SPACE and ENTRY (R142) -/

theorem spaceOfNumber_eq_edit {n : Nat} : spaceOfNumber n = some .edit ↔ n = 2 := by
  unfold spaceOfNumber; split <;> simp_all

theorem spaceOfNumber_of_large {n : Nat} (h : 6 ≤ n) : spaceOfNumber n = none := by
  unfold spaceOfNumber
  split
  case h_7 => rfl
  all_goals omega

section
variable {s : State} {c : Cell}

theorem State.readReply_badSpace (h : 6 ≤ c.space) : s.readReply (Request.ofCell c) = .plain .badSpace := by
  simp only [State.readReply, Request.ofCell_space, spaceOfNumber_of_large h]

theorem State.readReply_channel (h : c.space = 0) : s.readReply (Request.ofCell c) =
    ((channelOfNat c.b1.toNat).map fun n => (s.channels[n].field c.b6.toNat).reply).getD (.plain .badEntry) := by
  simp only [State.readReply, Request.ofCell_space, spaceOfNumber_eq_channel.2 h, Request.ofCell_entry]
  cases channelOfNat c.b1.toNat <;> rfl

theorem State.readReply_loop (h : c.space = 1) : s.readReply (Request.ofCell c) =
    ((loopOfNat c.b1.toNat).map fun k => (s.loops[k].field c.b6.toNat).reply).getD (.plain .badEntry) := by
  simp only [State.readReply, Request.ofCell_space, spaceOfNumber_eq_loop.2 h, Request.ofCell_entry]
  cases loopOfNat c.b1.toNat <;> rfl

theorem State.readReply_edit (h : c.space = 2) : s.readReply (Request.ofCell c) =
    if s.editBuffer = .empty then .plain .emptyEdit else (s.editBuffer.field c.b6.toNat).reply := by
  simp only [State.readReply, Request.ofCell_space, spaceOfNumber_eq_edit.2 h, Request.ofCell_aux]
  cases s.editBuffer <;> rfl

theorem State.readReply_part (h : c.space = 3) : s.readReply (Request.ofCell c) = (s.partField c.b6.toNat).reply := by
  simp only [State.readReply, Request.ofCell_space, spaceOfNumber_eq_part.2 h, Request.ofCell_aux]

theorem State.readReply_miss (h : c.space = 4) : s.readReply (Request.ofCell c) =
    if c.b1.toNat < 8 then positionReply MissRecord.field 3 s.missList[c.b1.toNat]? c.b6.toNat else .plain .badEntry := by
  simp only [State.readReply, Request.ofCell_space, spaceOfNumber_eq_miss.2 h, Request.ofCell_entry, Request.ofCell_aux]
  rfl

theorem State.readReply_alarm (h : c.space = 5) : s.readReply (Request.ofCell c) =
    if c.b1.toNat < 32 then positionReply AlarmRecord.field 7 s.alarms[c.b1.toNat]? c.b6.toNat else .plain .badEntry := by
  simp only [State.readReply, Request.ofCell_space, spaceOfNumber_eq_alarm.2 h, Request.ofCell_entry, Request.ofCell_aux]
  rfl

end

theorem readRefusesSpaceAndEntry : Clause.ReadRefusesSpaceAndEntry := by
  intro s c reply
  refine ⟨State.readReply_badSpace, fun hspace hentry => ?_, fun hspace hentry => ?_, fun hspace hentry => ?_,
    fun hspace hentry => ?_, fun hspace hempty => ?_⟩
  · exact (State.readReply_channel hspace).trans (by rw [channelOfNat_of_large hentry]; rfl)
  · exact (State.readReply_loop hspace).trans (by rw [loopOfNat_of_large hentry]; rfl)
  · exact (State.readReply_miss hspace).trans (if_neg (Nat.not_lt.2 hentry))
  · exact (State.readReply_alarm hspace).trans (if_neg (Nat.not_lt.2 hentry))
  · exact (State.readReply_edit hspace).trans (if_pos hempty)

/-! ### Codes as VALUE (R136) -/

theorem yesNo_cast (b : Bool) : ((yesNo b : Nat) : Int) = if b = true then 1 else 0 := by
  cases b <;> rfl

theorem TripMode.code_cast (m : TripMode) : ((m.code : Nat) : Int) = if m = .compare then 0 else 1 := by
  cases m <;> rfl

theorem Sense.code_cast (m : Sense) : ((m.code : Nat) : Int) = if m = .rising then 0 else 1 := by
  cases m <;> rfl

theorem Mode.code_cast (m : Mode) : ((m.code : Nat) : Int) = if m = .pass then 0 else 1 := by
  cases m <;> rfl

theorem MissPolicy.code_cast (m : MissPolicy) : ((m.code : Nat) : Int) = if m = .forward then 0 else 1 := by
  cases m <;> rfl

theorem LinkState.code_cast (l : LinkState) : ((l.code : Nat) : Int) = if l = .hunt then 0 else 1 := by
  cases l <;> rfl

theorem Phase.code_cast (p : Phase) : ((p.code : Nat) : Int) = if p = .new then 0 else 1 := by
  cases p <;> rfl

/-! ### Channels and loops (R143) -/

/-- A field that may be absent is answered by its value or ABSENT. -/
theorem FieldValue.reply_ofOption (v : Option Int) : (FieldValue.ofOption v).reply = Clause.orAbsent v := by
  cases v <;> rfl

theorem ChannelConfig.reply_field (cfg : ChannelConfig) (number : Nat) :
    (FieldValue.ofListed (cfg.field number)).reply = Clause.channelEditReply cfg number := by
  rw [ChannelConfig.field_eq]
  unfold Clause.channelEditReply
  split
  case h_10 => exact congrArg Reply.result (TripMode.code_cast _)
  case h_15 => exact congrArg Reply.result (yesNo_cast _)
  case h_16 =>
    simp only [imp_false] at *
    obtain rfl | hlarge : number = 0 ∨ 16 ≤ number := by omega
    · rfl
    · rw [List.getD_eq_default _ _ hlarge]
      rfl
  all_goals rfl

theorem LoopConfig.reply_field (cfg : LoopConfig) (number : Nat) :
    (FieldValue.ofListed (cfg.field number)).reply = Clause.loopEditReply cfg number := by
  rw [LoopConfig.field_eq]
  unfold Clause.loopEditReply
  split
  case h_1 => exact congrArg Reply.result (yesNo_cast _)
  case h_5 => exact congrArg Reply.result (Sense.code_cast _)
  case h_18 =>
    simp only [imp_false] at *
    have hlarge : 17 ≤ number := by omega
    rw [List.getD_eq_default _ _ hlarge]
    rfl
  all_goals rfl

/-- A number that names none of an entry's own fields is answered by the static fields. -/
theorem Channel.field_of_edit (e : Channel) {number : Nat} (h0 : number ≠ 0) (h16 : number ≠ 16)
    (hdyn : number < 32 ∨ 39 < number) : e.field number = .ofListed (e.cfg.field number) := by
  unfold Channel.field
  split
  case h_11 => rfl
  all_goals omega

theorem Channel.field_tripSeq (e : Channel) :
    e.field 39 = .ofOption (e.dyn.tripSeq.map (fun seq => (seq : Int))) := rfl

theorem Loop.field_of_edit (l : Loop) {number : Nat} (h17 : number ≠ 17) (hdyn : number < 32 ∨ 36 < number) :
    l.field number = .ofListed (l.cfg.field number) := by
  unfold Loop.field
  split
  case h_7 => rfl
  all_goals omega

theorem readAnswersEntryFields : Clause.ReadAnswersEntryFields := by
  intro s c reply
  refine ⟨fun n hspace hn => ?_, fun k hspace hk => ?_⟩
  · have answered : reply = (s.channels[n].field c.b6.toNat).reply :=
      (State.readReply_channel hspace).trans (by rw [hn, channelOfNat_val]; rfl)
    rw [answered]
    dsimp only
    split
    case h_1 hf | h_8 hf | h_9 hf => rw [hf]; exact congrArg Reply.result (yesNo_cast _)
    case h_5 hf | h_6 hf | h_7 hf => rw [hf]; exact FieldValue.reply_ofOption _
    case h_10 hf =>
      rw [hf, Channel.field_tripSeq]
      cases s.channels[n].dyn.tripSeq <;> rfl
    case h_11 =>
      simp only [imp_false] at *
      rw [Channel.field_of_edit _ (by omega) (by omega) (by omega), ChannelConfig.reply_field]
    all_goals next hf => rw [hf]; rfl
  · have answered : reply = (s.loops[k].field c.b6.toNat).reply :=
      (State.readReply_loop hspace).trans (by rw [hk, loopOfNat_val]; rfl)
    rw [answered]
    dsimp only
    split
    case h_6 hf => rw [hf]; exact congrArg Reply.result (yesNo_cast _)
    case h_7 =>
      simp only [imp_false] at *
      rw [Loop.field_of_edit _ (by omega) (by omega), LoopConfig.reply_field]
    all_goals next hf => rw [hf]; rfl

/-! ### The edit buffer and the part (R144, R145) -/

theorem readAnswersEditFields : Clause.ReadAnswersEditFields := by
  intro s c hspace reply
  have answered : reply = _ := State.readReply_edit hspace
  refine ⟨fun cfg hbuffer => ?_, fun cfg hbuffer => ?_⟩
  · rw [answered, hbuffer, ← ChannelConfig.reply_field]
    exact apply_ite FieldValue.reply _ _ _
  · rw [answered, hbuffer, ← LoopConfig.reply_field]
    exact apply_ite FieldValue.reply _ _ _

theorem readAnswersPartFields : Clause.ReadAnswersPartFields := by
  intro s c hspace
  rw [State.readReply_part hspace, State.partField_eq]
  split
  case h_3 hf => rw [hf]; exact congrArg Reply.result (Mode.code_cast _)
  case h_4 hf => rw [hf]; exact congrArg Reply.result (MissPolicy.code_cast _)
  case h_8 hf | h_9 hf => rw [hf]; exact congrArg Reply.result (yesNo_cast _)
  case h_11 hf | h_12 hf => rw [hf]; exact congrArg Reply.result (LinkState.code_cast _)
  case h_22 =>
    simp only [imp_false] at *
    have hlarge : 21 ≤ c.b6.toNat := by omega
    rw [List.getD_eq_default _ _ hlarge]
    rfl
  all_goals next hf => rw [hf]; rfl

/-! ### Records of the Miss List and of the Alarm Queue (R146) -/

section
variable {α : Type} {field : α → Nat → FieldValue} {listed number : Nat}

theorem positionReply_unlisted (h : listed ≤ number) (record : Option α) :
    positionReply field listed record number = .plain .badField :=
  if_neg (Nat.not_lt.2 h)

theorem positionReply_none (h : number < listed) : positionReply field listed none number = .plain .notFound :=
  if_pos h

theorem positionReply_some (h : number < listed) (r : α) :
    positionReply field listed (some r) number = (field r number).reply :=
  if_pos h

end

theorem readAnswersRecordFields : Clause.ReadAnswersRecordFields := by
  intro s c reply
  refine ⟨fun hspace hentry => ?_, fun hspace hentry => ?_⟩
  · have answered : reply = positionReply MissRecord.field 3 s.missList[c.b1.toNat]? c.b6.toNat :=
      (State.readReply_miss hspace).trans (if_pos hentry)
    have held : ∀ r, s.missList[c.b1.toNat]? = some r → ∀ f, c.b6.toNat = f → f < 3 → reply = (r.field f).reply :=
      fun r hr f hf hlisted => by rw [answered, hr, hf, positionReply_some hlisted]
    refine ⟨fun hf => answered.trans (positionReply_unlisted hf _), fun hf hlength => ?_, fun r hr => ?_⟩
    · rw [answered, List.getElem?_eq_none hlength, positionReply_none hf]
    · exact ⟨fun hf => held r hr _ hf (by decide), fun hf => held r hr _ hf (by decide),
        fun hf => held r hr _ hf (by decide)⟩
  · have answered : reply = positionReply AlarmRecord.field 7 s.alarms[c.b1.toNat]? c.b6.toNat :=
      (State.readReply_alarm hspace).trans (if_pos hentry)
    have held : ∀ r, s.alarms[c.b1.toNat]? = some r → ∀ f, c.b6.toNat = f → f < 7 → reply = (r.field f).reply :=
      fun r hr f hf hlisted => by rw [answered, hr, hf, positionReply_some hlisted]
    refine ⟨fun hf => answered.trans (positionReply_unlisted hf _), fun hf hlength => ?_, fun r hr => ?_⟩
    · rw [answered, List.getElem?_eq_none hlength, positionReply_none hf]
    · have field : ∀ f, c.b6.toNat = f → f < 7 → reply = (r.field f).reply := held r hr
      refine ⟨fun hf => field 0 hf (by decide), fun hf => field 1 hf (by decide), fun hf => ?_,
        fun hf => field 3 hf (by decide), fun hf => ?_, fun hf => ?_, fun hf => field 6 hf (by decide)⟩
      · rw [field 2 hf (by decide), AlarmRecord.field]
        cases r.subject with
        | port p => cases p <;> rfl
        | _ => rfl
      · exact (field 4 hf (by decide)).trans (congrArg Reply.result (yesNo_cast _))
      · exact (field 5 hf (by decide)).trans (congrArg Reply.result (Phase.code_cast _))

/-- Settles O35: READ by its SPACE, and then every field number of the six spaces. -/
theorem readChecksInOrder : Obligations.ReadChecksInOrder :=
  ⟨readRefusesSpaceAndEntry, readAnswersEntryFields, readAnswersEditFields, readAnswersPartFields, readAnswersRecordFields⟩

end Sys2Proof.Machine

/-! ## O45: SET_PART -/

namespace Sys2Proof.Machine

/-! ### The rule (R150) -/

section
variable {s : State} {c : Cell}

theorem State.setPartRule_of_badSpace (h : c.space ≠ 3) : s.setPartRule (Request.ofCell c) = s.refuse .badSpace := by
  unfold State.setPartRule
  split
  · next hs => exact absurd (spaceOfNumber_eq_part.1 hs) h
  all_goals rfl

/-- With SPACE PART the write of the setting decides. -/
theorem State.setPartRule_of_part (h : c.space = 3) :
    s.setPartRule (Request.ofCell c) =
      match s.settings.write c.b6.toNat c.value with
      | .unlisted => s.refuse .badField
      | .readOnly => s.refuse .readOnly
      | .badValue => s.refuse .badValue
      | .written p => { state := s.withSettings p, reply := .result c.value } := by
  simp only [State.setPartRule, Request.ofCell_space, spaceOfNumber_eq_part.2 h]
  rfl

end

/-! ### The switch of the conditioner mode (R11, R25, R97) -/

/-- The part after the switch that new settings make, if they make one. -/
def State.switched (s : State) (p : Settings) : State := if p.mode = s.settings.mode then s else s.switchTo p.mode

/-- New settings change the settings and, by a switch, the tables; the request taken stays taken. -/
theorem State.withSettings_taken (s : State) (rest : List Cell) (p : Settings) :
    (s.taken rest).withSettings p =
      ({ s with requests := rest, settings := p, channels := (s.switched p).channels, loops := (s.switched p).loops }
        : State).reserving := by
  unfold State.withSettings State.switched
  rw [show (s.taken rest).settings = s.settings from rfl]
  split
  · rfl
  · cases p.mode <;> rfl

/-- The switch to PASS stops the deadline and a running forward timer (R11, R25). -/
theorem Channel.toPass_eq (e : Channel) : e.toPass =
    { e with deadline := none
             dyn := { e.dyn with forward := if e.dyn.forward = .expired then .expired else .idle } } := by
  obtain ⟨valid, cfg, revision, ⟨state, run, last, lastRaw, sent, acked, clearMet, tripSeq, forward⟩, deadline⟩ := e
  cases forward <;> rfl

/-- The switch to ACTIVE of a loop that does not wait with a STOP_TIME of 0 (R97). -/
theorem Loop.toActive_eq {l : Loop} (h : 0 < l.cfg.stopTime ∨ l.state ≠ .stopWait) : l.toActive =
    match l.state with
    | .stopped | .starting => { l with stepTimer := some l.cfg.upInterval }
    | .running => { l with stepTimer := some l.cfg.downInterval }
    | .stopWait => { l with stepTimer := some l.cfg.downInterval, stopTimer := some l.cfg.stopTime }
    | .held | .manual | .disabled => l := by
  obtain ⟨cfg, revision, state, drive, satCount, guardCount, pending, stepTimer, stopTimer, refreshTimer⟩ := l
  cases state with
  | stopWait =>
    have hstop : ¬cfg.stopTime = 0 := by
      rcases h with h | h
      · exact Nat.ne_of_gt h
      · exact absurd rfl h
    exact if_neg hstop
  | _ => rfl

section
variable {s : State} {p : Settings}

theorem State.switched_to_pass (hs : s.settings.mode = .active) (hp : p.mode = .pass) :
    s.switched p = (s.mapChannels Channel.toPass).mapLoops Loop.toPass := by
  simp [State.switched, State.switchTo, hs, hp]

theorem State.switched_to_active (hs : s.settings.mode = .pass) (hp : p.mode = .active) :
    s.switched p = (s.mapChannels Channel.toActive).mapLoops Loop.toActive := by
  simp [State.switched, State.switchTo, hs, hp]

end

/-- Settles O45: the rule answers what the write of the setting says, and a write of another MODE is one switch of both
tables. -/
theorem setPartWritesSettings : Obligations.SetPartWritesSettings := by
  intro s c rest h hopen hfrozen hop refused
  have takes : RequestRow.setPart.takes (Request.ofCell c) = true := by simp [RequestRow.takes, hop]
  have served : ∀ t reply, (s.taken rest).setPartRule (Request.ofCell c) = { state := State.reserving t, reply := reply } →
      exec .setPart s = .next (t.answered c reply) := fun t reply hrule =>
    exec_of_served_opened h hopen (fun _ => rfl) takes (fun _ => hfrozen) hrule
  refine ⟨fun hspace => served _ _ (State.setPartRule_of_badSpace hspace), fun hspace => ?_⟩
  have rule := State.setPartRule_of_part (s := s.taken rest) hspace
  rw [show (s.taken rest).settings = s.settings from rfl] at rule
  refine ⟨fun hw => served _ _ ?_, fun hw => served _ _ ?_, fun hw => served _ _ ?_, fun p hw =>
    ⟨s.switched p, served _ _ ?_, fun hmode => if_pos hmode, fun hs hp => ?_, fun hs hp => ?_⟩⟩
  · rw [rule, hw]
    rfl
  · rw [rule, hw]
    rfl
  · rw [rule, hw]
    rfl
  · rw [rule, hw, ← State.withSettings_taken]
  · rw [State.switched_to_pass hs hp]
    exact ⟨fun n => (mapTable_fin _ _ n).trans (Channel.toPass_eq _), fun k => mapTable_fin _ _ k⟩
  · rw [State.switched_to_active hs hp]
    refine ⟨fun n => (mapTable_fin _ _ n).trans ?_, fun k hk => (mapTable_fin _ _ k).trans (Loop.toActive_eq hk)⟩
    simp only [Channel.toActive_eq, Channel.forwardStarts_iff, Option.isSome_iff_ne_none]

end Sys2Proof.Machine

/-! ## O47, O48: CLEAR, FREEZE and RESTART -/

namespace Sys2Proof.Machine

section
variable {s : State} {c : Cell}

theorem State.clearRule_of_miss (h : c.space = 4) :
    s.clearRule (Request.ofCell c) = { state := { s with missList := [] }, reply := .plain .ok } := by
  simp only [State.clearRule, Request.ofCell_space, spaceOfNumber_eq_miss.2 h]

theorem State.clearRule_of_part (h : c.space = 3) :
    s.clearRule (Request.ofCell c) = { state := s.clearCounters, reply := .plain .ok } := by
  simp only [State.clearRule, Request.ofCell_space, spaceOfNumber_eq_part.2 h]

theorem State.clearRule_of_badSpace (hpart : c.space ≠ 3) (hmiss : c.space ≠ 4) :
    s.clearRule (Request.ofCell c) = s.refuse .badSpace := by
  unfold State.clearRule
  split
  · next hs => exact absurd (spaceOfNumber_eq_miss.1 hs) hmiss
  · next hs => exact absurd (spaceOfNumber_eq_part.1 hs) hpart
  all_goals rfl

end

theorem clearEmptiesListOrCounters : Clause.ClearEmptiesListOrCounters := by
  intro s c rest h hopen hop
  have miss : ∀ t reply, c.space ≠ 3 →
      (s.taken rest).clearRule (Request.ofCell c) = { state := State.reserving t, reply := reply } →
      exec .clearMiss s = .next (t.answered c reply) := fun t reply hspace =>
    exec_of_served_opened h hopen (fun _ => rfl) (by simp [RequestRow.takes, hop, spaceOfNumber_eq_part, hspace]) nofun
  have part : ∀ t reply, c.space ≠ 4 →
      (s.taken rest).clearRule (Request.ofCell c) = { state := State.reserving t, reply := reply } →
      exec .clearPart s = .next (t.answered c reply) := fun t reply hspace =>
    exec_of_served_opened h hopen (fun _ => rfl) (by simp [RequestRow.takes, hop, spaceOfNumber_eq_miss, hspace]) nofun
  exact ⟨fun hmiss => miss _ _ (by omega) (State.clearRule_of_miss hmiss),
    fun hpart => part _ _ (by omega) (State.clearRule_of_part hpart),
    fun hpart hmiss => ⟨miss _ _ hpart (State.clearRule_of_badSpace hpart hmiss),
      part _ _ hmiss (State.clearRule_of_badSpace hpart hmiss)⟩⟩

theorem freezeSetsTheFlag : Clause.FreezeSetsTheFlag := by
  intro s c rest h hopen hop
  exact exec_of_served_opened (t := { s with requests := rest, frozen := true }) h hopen (fun _ => rfl)
    (by simp [RequestRow.takes, hop]) nofun rfl

/-- Settles O47: the rules of CLEAR, by SPACE, and of FREEZE, each served in the OPEN session. -/
theorem clearAndFreeze : Obligations.ClearAndFreeze :=
  ⟨clearEmptiesListOrCounters, freezeSetsTheFlag⟩

/-! ### The warm reset (R152, R154) -/

theorem deadlineStart_eq (mode : Mode) (cfg : ChannelConfig) :
    deadlineStart mode cfg = if mode = .active then orStopped cfg.silence else none := by
  cases mode with
  | active => exact startUnlessZero_eq_orStopped _
  | pass => rfl

/-- A warm reset leaves a loop in DISABLED but for its GUARD_COUNT, and brings any other to HELD (R100). -/
theorem Loop.warmReset_eq (l : Loop) : l.warmReset =
    if l.state = .disabled then { l with guardCount := 0 }
    else
      { l with state := .held, drive := l.cfg.failsafeDuty, pending := true, satCount := 0, guardCount := 0
               stepTimer := none, stopTimer := none, refreshTimer := orStopped l.cfg.refresh } := by
  rw [← startUnlessZero_eq_orStopped]
  unfold Loop.warmReset
  cases hs : l.state with
  | disabled => rfl
  | _ => rfl

theorem State.isWarmResetOf_warmReset (s : State) : s.warmReset.IsWarmResetOf s := by
  refine ⟨?_, fun n => ?_, fun k => ?_⟩
  · simp only [State.warmReset, State.sessionReset, State.forwardingReset, State.alarmReset, State.withAlarms,
      State.mapLoops, State.mapChannels, alertOf, List.any_nil]
  · rw [State.warmReset_channels, mapTable_fin, Channel.warmReset, deadlineStart_eq]
    rfl
  · rw [State.warmReset_loops, mapTable_fin, Loop.warmReset_eq]

/-- A warm reset does not see that a request was taken. -/
theorem State.warmReset_taken (s : State) (rest : List Cell) : (s.taken rest).warmReset = s.warmReset := by
  unfold State.warmReset
  rfl

/-- After a warm reset a completion finds no place reserved, no response held and no session (R122, R152, R156). -/
theorem State.complete_warmReset (s : State) (c : Cell) (reply : Reply) :
    s.warmReset.complete c reply =
      { s.warmReset with responses := if s.north.link = .sync then [responseCell c reply] else [] } := by
  have link : s.warmReset.north.link = s.north.link := rfl
  have responses : s.warmReset.responses = [] := rfl
  have reserved : s.warmReset.reserved = 0 := rfl
  have session : s.warmReset.session = .closed := rfl
  simp only [State.complete_eq, State.answered, link, responses, reserved, session, reduceCtorEq, if_false, List.nil_append,
    Nat.zero_sub]

/-- Settles O48: the rule of RESTART makes the warm reset, and the completion places the one response after it. -/
theorem restartRequestMakesWarmReset : Obligations.RestartRequestMakesWarmReset := by
  intro s c rest h hopen hop
  have takes : RequestRow.restart.takes (Request.ofCell c) = true := by simp [RequestRow.takes, hop]
  have passed : Gates.session.refusal (s.atRule rest) = none := by
    rw [State.atRule_of_opened hopen]
    exact Gates.session_passed hopen
  have rule : (s.atRule rest).reserving.warmReset = s.warmReset := by
    rw [State.atRule_of_opened hopen]
    exact s.warmReset_taken rest
  refine ⟨s.warmReset, s.isWarmResetOf_warmReset, ?_⟩
  rw [← State.complete_warmReset, ← rule]
  exact exec_of_passed (answer := { state := _, reply := .plain .ok }) h (fun _ => rfl) takes passed rfl

end Sys2Proof.Machine

/-! ## O53: the session -/

namespace Sys2Proof.Machine

/-! ### What the laws of the session look at -/

/-- The session, its counter and timers, the edit buffer and the Agent's state. -/
structure Dialogue where
  session       : SessionState
  openCounter   : Nat
  proposal      : Option Nat
  proposalTimer : Option Nat
  sessionTimer  : Option Nat
  editBuffer    : EditBuffer
  agent         : AgentState

/-- The dialogue of a state. -/
def State.dialogue (s : State) : Dialogue :=
  { session := s.session, openCounter := s.openCounter, proposal := s.proposal, proposalTimer := s.proposalTimer,
    sessionTimer := s.sessionTimer, editBuffer := s.editBuffer, agent := s.agent }

/-- The edit buffer passes the screening of a COMMIT: it holds a record of the request's space, and the request's ENTRY is in
the table of that space (R165). -/
def EditBuffer.Passes (buffer : EditBuffer) (r : Request) : Prop :=
  match buffer with
  | .empty => False
  | .channel _ => r.space = some .channel ∧ r.entry < Config.channelCount
  | .loop _ => r.space = some .loop ∧ r.entry < Config.loopCount

theorem channelOfNat_isSome (m : Nat) : (channelOfNat m).isSome ↔ m < Config.channelCount := by
  unfold channelOfNat
  split <;> simp_all

theorem loopOfNat_isSome (m : Nat) : (loopOfNat m).isSome ↔ m < Config.loopCount := by
  unfold loopOfNat
  split <;> simp_all

theorem State.screen_passes_iff (s : State) (r : Request) :
    (∃ target, s.screen r = .passed target) ↔ s.editBuffer.Passes r := by
  unfold State.screen EditBuffer.Passes
  split
  · next hspace hbuffer =>
    rw [hbuffer]
    simp only [hspace, ← channelOfNat_isSome]
    cases channelOfNat r.entry <;> simp
  · next hspace hbuffer =>
    rw [hbuffer]
    simp only [hspace, ← loopOfNat_isSome]
    cases loopOfNat r.entry <;> simp
  -- Every other branch refuses: the buffer is EMPTY or of another space than the request's.
  all_goals cases hbuffer : s.editBuffer <;> simp_all

/-- The laws that hold while a request is executed too: a proposal and its timer stand in PROPOSED, the session timer runs in
OPEN only, and out of OPEN the edit buffer is EMPTY (R156, R162). -/
structure Dialogue.Fits (d : Dialogue) : Prop where
  proposal : d.session = .proposed ↔ d.proposal.isSome
  proposalTimer : d.session = .proposed ↔ d.proposalTimer.isSome
  timerOpen : d.sessionTimer.isSome → d.session = .opened
  buffer : d.session ≠ .opened → d.editBuffer = .empty
  counter : d.openCounter ≤ 32767
  proposed : ∀ p, d.proposal = some p → 1 ≤ p ∧ p = d.openCounter

/-- The laws of the session between two happenings: the session timer of an OPEN session runs but for a COMMIT in flight
(R161, R165). -/
structure Dialogue.Sound (d : Dialogue) : Prop extends d.Fits where
  timer : d.session = .opened → d.agent = .idle → d.sessionTimer.isSome
  flight : ∀ c, d.agent = .committing c →
    d.session = .opened ∧ d.sessionTimer = none ∧ d.editBuffer.Passes (Request.ofCell c)

/-- The laws while a request is executed, before its completion has started the session timer. -/
structure Dialogue.Answering (d : Dialogue) : Prop extends d.Fits where
  idle : d.agent = .idle

theorem State.sessionSound_iff (s : State) : s.SessionSound ↔ s.dialogue.Sound := by
  constructor
  · rintro ⟨hproposal, hproposalTimer, htimer, hbuffer, hflight, hcounter, hproposed⟩
    refine ⟨⟨hproposal, hproposalTimer, fun h => (htimer.2 h).1, hbuffer, hcounter, hproposed⟩,
      fun hopen hidle => htimer.1 ⟨hopen, hidle⟩, fun c (hc : s.agent = .committing c) => ?_⟩
    rw [hc] at hflight
    refine ⟨hflight.1, ?_, (s.screen_passes_iff _).1 hflight.2⟩
    by_contra hruns
    have hidle := (htimer.2 (Option.isSome_iff_ne_none.2 hruns)).2
    rw [hc] at hidle
    cases hidle
  · intro h
    refine ⟨h.proposal, h.proposalTimer, ⟨fun ⟨hopen, hidle⟩ => h.timer hopen hidle, fun hruns => ⟨h.timerOpen hruns, ?_⟩⟩,
      h.buffer, ?_, h.counter, h.proposed⟩
    · cases hagent : s.agent with
      | idle => rfl
      | committing c =>
        have hstopped : s.sessionTimer = none := (h.flight c hagent).2.1
        rw [hstopped] at hruns
        cases hruns
    · split
      · trivial
      · next c hagent =>
        obtain ⟨hopen, -, hpasses⟩ := h.flight c hagent
        exact ⟨hopen, (s.screen_passes_iff _).2 hpasses⟩

/-! ### Operations that leave the dialogue -/

@[simp] theorem State.dialogue_raise (s : State) (a : Alarm) : (s.raise a).dialogue = s.dialogue := by
  simp [State.dialogue]

@[simp] theorem State.dialogue_handNorth (s : State) (c : Cell) : (s.handNorth c).dialogue = s.dialogue := by
  simp [State.dialogue]

@[simp] theorem State.dialogue_handSouth (s : State) (c : Cell) : (s.handSouth c).dialogue = s.dialogue := by
  simp [State.dialogue]

@[simp] theorem State.dialogue_withReceiver (s : State) (p : Port) (r : Receiver) :
    (s.withReceiver p r).dialogue = s.dialogue := by
  cases p <;> rfl

@[simp] theorem State.dialogue_enterSync (s : State) (p : Port) : (s.enterSync p).dialogue = s.dialogue := by
  unfold State.enterSync
  dsimp only
  rw [State.dialogue_raise]
  cases p <;> rfl

@[simp] theorem State.dialogue_enterHunt (s : State) (p : Port) : (s.enterHunt p).dialogue = s.dialogue := by
  unfold State.enterHunt
  dsimp only
  rw [State.dialogue_raise]
  cases p <;> rfl

theorem State.dialogue_classify (s : State) (c : Cell) : (s.classify c).dialogue = s.dialogue := by
  rcases s.classify_cases c with ⟨-, h⟩ | ⟨n, -, -, -, h⟩ | ⟨-, -, h⟩ <;> rw [h]
  · exact s.dialogue_handNorth c
  · obtain ⟨d, d', q, pin, seq, fifo, lost, -, -, h⟩ := s.takeHit_spec n c
    rw [h]
    rfl
  · obtain ⟨fifo, lost, h⟩ := s.takeMiss_spec c
    rw [h]
    rfl

theorem State.dialogue_dispatch (s : State) (p : Port) (c : Cell) : (s.dispatch p c).dialogue = s.dialogue := by
  rcases s.dispatch_cases p c with
    h | ⟨-, -, h⟩ | ⟨d, -, -, h⟩ | ⟨d, -, h⟩ | ⟨-, -, h⟩ | ⟨-, h⟩ | ⟨k, -, -, h⟩ <;> rw [h]
  · exact s.dialogue_classify c
  · exact s.dialogue_handNorth d
  · exact s.dialogue_handSouth d
  all_goals rfl

theorem State.dialogue_takeArrival (s : State) (p : Port) (a : Arrival) : (s.takeArrival p a).dialogue = s.dialogue := by
  rcases s.takeArrival_cases p a with ⟨r, h, -⟩ | ⟨r, h, -⟩ | ⟨r, h, -⟩ | ⟨c, -, -, -, h⟩ <;> rw [h]
  · exact s.dialogue_withReceiver p r
  · rw [State.dialogue_enterSync, State.dialogue_withReceiver]
  · rw [State.dialogue_enterHunt, State.dialogue_withReceiver]
  · exact (State.dialogue_dispatch ..).trans (s.dialogue_withReceiver p _)

theorem State.dialogue_sendForwarded (s : State) : s.sendForwarded.dialogue = s.dialogue := by
  unfold State.sendForwarded
  split <;> rfl

theorem State.dialogue_northSlot (s : State) : s.fillNorthSlot.dialogue = s.dialogue := by
  unfold State.fillNorthSlot
  split
  · rfl
  · split
    · exact s.dialogue_sendForwarded
    · unfold State.sendInserted
      split
      · rfl
      · split
        · rfl
        · exact s.dialogue_sendForwarded

theorem State.dialogue_southSlot (s : State) : s.fillSouthSlot.dialogue = s.dialogue := by
  unfold State.fillSouthSlot
  split
  · rfl
  · split
    · unfold State.contended
      split <;> rfl
    all_goals rfl

theorem State.dialogue_deadlineExpires (s : State) (n : Fin Config.channelCount) :
    (s.deadlineExpires n).dialogue = s.dialogue := by
  unfold State.deadlineExpires
  dsimp only
  split
  · rfl
  · exact State.dialogue_raise ..

theorem State.dialogue_resendExpires (s : State) (seq : Nat) : (s.resendExpires seq).dialogue = s.dialogue := by
  unfold State.resendExpires
  split
  · split <;> rfl
  all_goals rfl

theorem State.dialogue_takeStep (s : State) (k : Fin Config.loopCount) : (s.takeStep k).dialogue = s.dialogue := by
  unfold State.takeStep
  dsimp only
  split
  · rfl
  · rfl
  · unfold State.stepLoop
    dsimp only
    split
    · exact State.dialogue_raise ..
    · rfl

/-! ### The rules of the Agent that leave the dialogue -/

theorem State.dialogue_acknowledge (s : State) (n : Fin Config.channelCount) : (s.acknowledge n).dialogue = s.dialogue := by
  unfold State.acknowledge
  dsimp only
  split
  · exact State.dialogue_raise ..
  · rfl

theorem State.dialogue_ack (s : State) (r : Request) : (s.ack r).state.dialogue = s.dialogue := by
  have acknowledged : ∀ n, ((s.removeTripRecord n).acknowledge n).dialogue = s.dialogue := fun n => by
    rw [State.dialogue_acknowledge, State.removeTripRecord]
    split <;> rfl
  unfold State.ack
  split
  · unfold State.ackSeq
    split
    · rfl
    · dsimp only
      split
      · exact State.dialogue_acknowledge ..
      · rfl
  · split
    · unfold State.ackEntry
      split
      · exact acknowledged _
      · exact acknowledged _
      all_goals rfl
    · rfl
  all_goals rfl

theorem State.dialogue_manualRule (s : State) (r : Request) : (s.manualRule r).state.dialogue = s.dialogue := by
  unfold State.manualRule
  split
  · split
    · split
      · unfold State.manualLoop State.manualDone
        split
        · rfl
        all_goals split <;> rfl
      · rfl
    · rfl
  all_goals rfl

theorem State.dialogue_removeRule (s : State) (r : Request) : (s.removeRule r).state.dialogue = s.dialogue := by
  unfold State.removeRule
  split
  · split
    · unfold State.removeEntry
      split <;> rfl
    · rfl
  · split <;> rfl
  all_goals rfl

theorem State.dialogue_setPartRule (s : State) (r : Request) : (s.setPartRule r).state.dialogue = s.dialogue := by
  unfold State.setPartRule
  split
  · split
    case h_4 p _ =>
      obtain ⟨f, g, -, -, h⟩ := s.withSettings_spec p
      rw [h]
      rfl
    all_goals rfl
  all_goals rfl

theorem State.dialogue_clearRule (s : State) (r : Request) : (s.clearRule r).state.dialogue = s.dialogue := by
  unfold State.clearRule
  split <;> rfl

/-- An install touches no session (R169). -/
theorem State.dialogue_judge (s : State) (target : CommitTarget) : (s.judge target).state.dialogue = s.dialogue := by
  cases target with
  | channel n cfg =>
    obtain ⟨e, q, pin, -, -, h⟩ := s.installChannel_spec n cfg
    unfold State.judge
    dsimp only
    split
    · rfl
    · rw [h]
      rfl
  | loop k cfg =>
    obtain ⟨l, q, pin, -, -, h⟩ := s.installLoop_spec k cfg
    unfold State.judge
    dsimp only
    split
    · rfl
    · rw [h]
      rfl

/-! ### The session's own changes (R156 to R165) -/

section
variable {s : State}

/-- A proposal is dropped out of OPEN, where no session timer runs and the edit buffer is EMPTY. -/
theorem Dialogue.Fits.dropProposal (hs : s.dialogue.Fits) (hclosed : s.session ≠ .opened) :
    s.dropProposal.dialogue.Fits where
  proposal := by simp [State.dialogue, State.dropProposal]
  proposalTimer := by simp [State.dialogue, State.dropProposal]
  timerOpen hruns := absurd (hs.timerOpen hruns) hclosed
  buffer _ := hs.buffer hclosed
  counter := hs.counter
  proposed := nofun

theorem Dialogue.Answering.dropProposal (hs : s.dialogue.Answering) (hclosed : s.session ≠ .opened) :
    s.dropProposal.dialogue.Answering :=
  { hs.toFits.dropProposal hclosed with idle := hs.idle }

/-- Gate 1 leaves the dialogue, or drops the proposal (R141). -/
theorem Dialogue.Answering.resolveProposal (hs : s.dialogue.Answering) : s.resolveProposal.dialogue.Answering := by
  unfold State.resolveProposal
  split
  · next hproposed => exact hs.dropProposal (by rw [hproposed]; decide)
  all_goals exact hs

/-- In OPEN no proposal stands (R156). -/
theorem Dialogue.Fits.no_proposal (hs : s.dialogue.Fits) (hopen : s.session = .opened) :
    s.proposal = none ∧ s.proposalTimer = none := by
  have apart : ¬s.session = .proposed := by rw [hopen]; decide
  exact ⟨Option.not_isSome_iff_eq_none.1 fun h => apart (hs.proposal.2 h),
    Option.not_isSome_iff_eq_none.1 fun h => apart (hs.proposalTimer.2 h)⟩

/-- An OPEN session closes with its timer stopped and the edit buffer EMPTY (R156, R162). -/
theorem Dialogue.Answering.closeSession (hs : s.dialogue.Answering) (hopen : s.session = .opened) :
    s.closeSession.dialogue.Answering := by
  obtain ⟨hproposal, htimer⟩ := hs.no_proposal hopen
  exact {
    proposal := by simp [State.dialogue, State.closeSession, hproposal]
    proposalTimer := by simp [State.dialogue, State.closeSession, htimer]
    timerOpen := nofun
    buffer := fun _ => rfl
    counter := hs.counter
    proposed := hs.proposed
    idle := hs.idle }

/-- A proposal is made out of OPEN, with the open counter's next number (R157). -/
theorem Dialogue.Answering.propose (hs : s.dialogue.Answering) (hclosed : s.session ≠ .opened) :
    s.propose.dialogue.Answering where
  proposal := by simp [State.dialogue, State.propose]
  proposalTimer := by simp [State.dialogue, State.propose]
  timerOpen hruns := absurd (hs.timerOpen hruns) hclosed
  buffer _ := hs.buffer hclosed
  counter := by
    change nextProposal s.openCounter ≤ 32767
    unfold nextProposal
    split <;> omega
  proposed p hp := by
    cases hp
    refine ⟨?_, rfl⟩
    unfold nextProposal
    split <;> omega
  idle := hs.idle

theorem Dialogue.Answering.openPhase1Rule (hs : s.dialogue.Answering) (r : Request) :
    (s.openPhase1Rule r).state.dialogue.Answering := by
  unfold State.openPhase1Rule
  split
  · split
    · exact hs
    · next hclosed => exact hs.propose (by rw [hclosed]; decide)
    · next hproposed => exact hs.propose (by rw [hproposed]; decide)
  · exact hs

/-- The session opens with no proposal standing; its completion starts the session timer (R158). -/
theorem Dialogue.Answering.openSession (hs : s.dialogue.Answering) : s.openSession.dialogue.Answering where
  proposal := by simp [State.dialogue, State.openSession]
  proposalTimer := by simp [State.dialogue, State.openSession]
  timerOpen _ := rfl
  buffer hclosed := absurd rfl hclosed
  counter := hs.counter
  proposed := nofun
  idle := hs.idle

/-- The edit buffer of an OPEN session holds any record (R162). -/
theorem Dialogue.Answering.load (hs : s.dialogue.Answering) (hopen : s.session = .opened) (buffer : EditBuffer) :
    ({ s with editBuffer := buffer } : State).dialogue.Answering :=
  { hs with buffer := fun hclosed => absurd hopen hclosed }

theorem Dialogue.Answering.editLoadRule (hs : s.dialogue.Answering) (hopen : s.session = .opened) (r : Request) :
    (s.editLoadRule r).state.dialogue.Answering := by
  unfold State.editLoadRule
  split
  · split
    · exact hs.load hopen _
    · exact hs
  · split
    · exact hs.load hopen _
    · exact hs
  all_goals exact hs

theorem Dialogue.Answering.editSetRule (hs : s.dialogue.Answering) (hopen : s.session = .opened) (r : Request) :
    (s.editSetRule r).state.dialogue.Answering := by
  have written : ∀ {α : Type} (load : α → EditBuffer) w, (s.editWritten r.value load w).state.dialogue.Answering :=
    fun load w => by
      rcases s.editWritten_cases r.value load w with h | ⟨cfg, -, h⟩ <;> rw [h]
      · exact hs
      · exact hs.load hopen _
  unfold State.editSetRule
  split
  · exact written _ _
  · exact written _ _
  all_goals exact hs

/-- Either reset leaves no session; the open counter is kept by a warm reset (R154, R156). -/
theorem Dialogue.Fits.warmReset (hs : s.dialogue.Fits) : s.warmReset.dialogue.Answering where
  proposal := by simp [State.dialogue, State.warmReset, State.sessionReset]
  proposalTimer := by simp [State.dialogue, State.warmReset, State.sessionReset]
  timerOpen := nofun
  buffer _ := rfl
  counter := hs.counter
  proposed := nofun
  idle := rfl

theorem State.answering_coldCondition (s : State) : s.coldCondition.dialogue.Answering where
  proposal := by simp [State.dialogue, State.coldCondition, State.reset]
  proposalTimer := by simp [State.dialogue, State.coldCondition, State.reset]
  timerOpen := nofun
  buffer _ := rfl
  counter := Nat.zero_le _
  proposed := nofun
  idle := rfl

/-- Out of OPEN no session timer has to run. -/
theorem Dialogue.Answering.sound {d : Dialogue} (hd : d.Answering) (hclosed : d.session ≠ .opened) : d.Sound :=
  { hd with
    timer := fun hopen => absurd hopen hclosed
    flight := fun _ hc => nomatch hd.idle.symm.trans hc }

/-! ### Requests (R138, R161, R165, R169) -/

/-- The completion of a request starts the session timer of an OPEN session (R161). -/
theorem Dialogue.Answering.complete (hs : s.dialogue.Answering) (c : Cell) (reply : Reply) :
    (s.complete c reply).dialogue.Sound := by
  have completed : (s.complete c reply).dialogue =
      { s.dialogue with
        sessionTimer := if s.session = .opened then some s.settings.sessionTimeout else s.sessionTimer } := by
    rw [State.complete_eq]
    rfl
  rw [completed]
  by_cases hopen : s.session = .opened
  · rw [if_pos hopen]
    exact { hs with
      timerOpen := fun _ => hopen
      timer := fun _ _ => rfl
      flight := fun _ hc => nomatch hs.idle.symm.trans hc }
  · rw [if_neg hopen]
    exact hs.sound hopen

theorem Dialogue.Answering.takePhase2 (hs : s.dialogue.Answering) (c : Cell) (r : Request) :
    (s.takePhase2 c r).dialogue.Sound := by
  unfold State.takePhase2
  split
  · exact hs.openSession.complete c _
  · exact hs.resolveProposal.complete c _

theorem Dialogue.Answering.takeClose (hs : s.dialogue.Answering) (c : Cell) (r : Request) :
    (s.takeClose c r).dialogue.Sound := by
  unfold State.takeClose
  split
  · next hopen => exact (hs.closeSession hopen).complete c _
  · next hproposed => exact (hs.dropProposal (by rw [hproposed]; decide)).complete c _
  · exact hs.complete c _

/-- A request past gates 3 and 4 that needs an OPEN session finds one (R141). -/
theorem Gates.opened_of_passed {g : Gates} (hg : g.needsOpen = true) (h : g.refusal s = none) : s.session = .opened := by
  unfold Gates.refusal at h
  split at h
  · cases h
  · next hrefused => simpa [hg] using hrefused

/-- A COMMIT that passes its screening stops the session timer of the OPEN session (R165). -/
theorem Dialogue.Answering.takeCommit (hs : s.dialogue.Answering) (c : Cell) :
    (s.takeCommit c (Request.ofCell c)).dialogue.Sound := by
  have resolved := hs.resolveProposal
  unfold State.takeCommit
  dsimp only
  split
  · exact resolved.complete c _
  · next hpassed =>
    have hopen := Gates.opened_of_passed rfl hpassed
    split
    · exact resolved.complete c _
    · next target hscreen =>
      exact { resolved with
        timerOpen := nofun
        timer := fun _ hidle => nomatch hidle
        flight := fun d hd => by
          cases hd
          exact ⟨hopen, rfl, (State.screen_passes_iff _ _).1 ⟨target, hscreen⟩⟩ }

/-- The end of the scan completes the COMMIT in flight, whatever it installed (R169). -/
theorem Dialogue.Sound.endScan (hs : s.dialogue.Sound) (c : Cell) : (s.endScan c).dialogue.Sound := by
  have ended : ∀ t : State, t.dialogue = s.dialogue → ({ t with agent := .idle } : State).dialogue.Answering := by
    intro t ht
    have fits : t.dialogue.Fits := ht ▸ hs.toFits
    exact { fits with idle := rfl }
  unfold State.endScan
  split
  · exact (ended s rfl).complete c _
  · next target _ => exact (ended _ (s.dialogue_judge target)).complete c _

theorem Dialogue.Sound.takeRequest (hs : s.dialogue.Sound) {row : RequestRow} {execute : State → Cell → Request → State}
    (h : ∀ (b : State) (c : Cell), b.dialogue.Answering → (execute b c (Request.ofCell c)).dialogue.Sound) :
    (s.takeRequest row execute).dialogue.Sound := by
  rcases s.takeRequest_cases row execute with ht | ⟨c, rest, hidle, -, -, -, ht⟩ <;> rw [ht]
  · exact hs
  · exact h _ c { hs.toFits with idle := hidle }

theorem Dialogue.Sound.takeAndServe (hs : s.dialogue.Sound) {row : RequestRow} {g : Gates}
    {rule : State → Request → Answer}
    (h : ∀ (b : State) (r : Request), b.dialogue.Answering → g.refusal b = none → (rule b r).state.dialogue.Answering) :
    (s.takeAndServe row g rule).dialogue.Sound := by
  refine hs.takeRequest fun b c hb => ?_
  have resolved := hb.resolveProposal
  unfold State.serve
  dsimp only
  split
  · exact resolved.complete c _
  · next hpassed => exact (h _ _ resolved hpassed).complete c _

/-- A rule that leaves the dialogue. -/
theorem Dialogue.Sound.takeAndServe_of_dialogue (hs : s.dialogue.Sound) {row : RequestRow} {g : Gates}
    {rule : State → Request → Answer} (h : ∀ b r, (rule b r).state.dialogue = b.dialogue) :
    (s.takeAndServe row g rule).dialogue.Sound :=
  hs.takeAndServe fun b r hb _ => h b r ▸ hb

/-! ### The timers (R159, R161, R177) -/

/-- The proposal timer runs in PROPOSED only, where no COMMIT is in flight (R159). -/
theorem Dialogue.Sound.proposalExpires (hs : s.dialogue.Sound) (hdue : s.proposalTimer = some 0) :
    s.dropProposal.dialogue.Sound := by
  have hproposed : s.session = .proposed := hs.proposalTimer.2 (by simp [State.dialogue, hdue])
  have hclosed : s.session ≠ .opened := by rw [hproposed]; decide
  have hidle : s.agent = .idle := by
    cases hagent : s.agent with
    | idle => rfl
    | committing c => exact absurd (hs.flight c hagent).1 hclosed
  exact Dialogue.Answering.sound { hs.toFits.dropProposal hclosed with idle := hidle } nofun

/-- The session timer runs in OPEN with the Agent IDLE only (R161). -/
theorem Dialogue.Sound.sessionExpires (hs : s.dialogue.Sound) (hdue : s.sessionTimer = some 0) :
    s.closeSession.dialogue.Sound := by
  have hopen : s.session = .opened := hs.timerOpen (by simp [State.dialogue, hdue])
  have hidle : s.agent = .idle := by
    cases hagent : s.agent with
    | idle => rfl
    | committing c => exact nomatch hdue.symm.trans (hs.flight c hagent).2.1
  have answering : s.dialogue.Answering := { hs.toFits with idle := hidle }
  exact (answering.closeSession hopen).sound nofun

/-- A tick boundary neither starts nor stops a timer (R177). -/
theorem Dialogue.Sound.countBoundary (hs : s.dialogue.Sound) : s.countBoundary.dialogue.Sound where
  proposal := hs.proposal
  proposalTimer := hs.proposalTimer.trans (by rw [← countTicks_isSome]; rfl)
  timerOpen hruns := hs.timerOpen ((countTicks_isSome _).symm.trans hruns)
  buffer := hs.buffer
  counter := hs.counter
  proposed := hs.proposed
  timer hopen hidle := (countTicks_isSome _).trans (hs.timer hopen hidle)
  flight c hc := by
    obtain ⟨hopen, hstopped, hpasses⟩ := hs.flight c hc
    exact ⟨hopen, congrArg countTicks hstopped, hpasses⟩

theorem Dialogue.Sound.idle (hs : s.dialogue.Sound) : s.idle.dialogue.Sound := by
  unfold State.idle
  split
  · exact hs
  · split
    · exact hs
    · exact hs.countBoundary

end

/-! ### Every command and every step -/

section
variable {s t : State}

theorem Dialogue.Sound.coldReset {edge : ColdEdge} (hs : s.dialogue.Sound) (h : execColdReset edge s = .next t) :
    t.dialogue.Sound := by
  have cold : s.coldCondition.dialogue.Sound := s.answering_coldCondition.sound nofun
  unfold execColdReset at h
  cases edge with
  | resetFalls | powerUpBegins =>
    cases h
    exact cold
  | resetRises | powerUpEnds =>
    cases h
    split
    · exact cold
    · exact hs

theorem Dialogue.Sound.restartEdge {edge : RestartEdge} (hs : s.dialogue.Sound) (h : execWarmReset edge s = .next t) :
    t.dialogue.Sound := by
  have warm : ({ s with restartLow := true } : State).warmReset.dialogue.Sound :=
    (Dialogue.Fits.warmReset (s := { s with restartLow := true }) hs.toFits).sound nofun
  unfold execWarmReset at h
  cases edge with
  | rises =>
    cases h
    exact hs
  | falls heldLowNs =>
    cases h
    split
    · exact hs
    · split
      · exact hs
      · unfold State.restartFalls
        dsimp only
        split
        · exact warm
        · split
          · exact warm
          · exact hs

theorem Dialogue.Sound.happening {effect : State → State} (hs : s.dialogue.Sound) (h : happening s effect = .next t)
    (he : (effect s).dialogue.Sound) : t.dialogue.Sound := by
  rcases happening_cases h with ⟨-, rfl⟩ | ⟨-, rfl⟩
  · exact hs
  · exact he

theorem Dialogue.Sound.expiry {due : State → Bool} {effect : State → State} (hs : s.dialogue.Sound)
    (h : expiry s due effect = .next t) (he : due s = true → (effect s).dialogue.Sound) : t.dialogue.Sound := by
  rcases expiry_cases h with rfl | ⟨hdue, rfl⟩
  · exact hs
  · exact he hdue

/-- Every command keeps the laws of the session. -/
theorem Dialogue.Sound.exec {i : Instr} (hs : s.dialogue.Sound) (h : exec i s = .next t) : t.dialogue.Sound := by
  unfold Machine.exec at h
  cases i with
  | coldReset edge => exact hs.coldReset h
  | warmReset edge => exact hs.restartEdge h
  | arrival p a => exact hs.happening h (s.dialogue_takeArrival p a ▸ hs)
  | northSlot => exact hs.happening h (s.dialogue_northSlot ▸ hs)
  | southSlot => exact hs.happening h (s.dialogue_southSlot ▸ hs)
  | deadlineExpiry n => exact hs.expiry h fun _ => s.dialogue_deadlineExpires n ▸ hs
  | resendTimerExpiry seq => exact hs.happening h (s.dialogue_resendExpires seq ▸ hs)
  | step k => exact hs.expiry h fun _ => s.dialogue_takeStep k ▸ hs
  | forwardRefreshExpiry | stopTimerExpiry | refreshTimerExpiry => exact hs.expiry h fun _ => hs
  | proposalTimerExpiry => exact hs.expiry h fun hdue => hs.proposalExpires ((reached_iff _).1 hdue)
  | sessionTimerExpiry => exact hs.expiry h fun hdue => hs.sessionExpires ((reached_iff _).1 hdue)
  | read | unknownRequest | freeze => exact hs.happening h (hs.takeAndServe_of_dialogue fun _ _ => rfl)
  | openPhase1 => exact hs.happening h (hs.takeAndServe fun _ r hb _ => hb.openPhase1Rule r)
  | openPhase2 => exact hs.happening h (hs.takeRequest fun _ c hb => hb.takePhase2 c _)
  | close => exact hs.happening h (hs.takeRequest fun _ c hb => hb.takeClose c _)
  | editLoad =>
    exact hs.happening h (hs.takeAndServe fun _ r hb hpassed => hb.editLoadRule (Gates.opened_of_passed rfl hpassed) r)
  | editSet =>
    exact hs.happening h (hs.takeAndServe fun _ r hb hpassed => hb.editSetRule (Gates.opened_of_passed rfl hpassed) r)
  | commit => exact hs.happening h (hs.takeRequest fun _ c hb => hb.takeCommit c)
  | endOfScan =>
    refine hs.happening h ?_
    split
    · exact hs.endScan _
    · exact hs
  | removeChannel | removeLoop => exact hs.happening h (hs.takeAndServe_of_dialogue State.dialogue_removeRule)
  | setPart => exact hs.happening h (hs.takeAndServe_of_dialogue State.dialogue_setPartRule)
  | ackAlarm | ackChannel => exact hs.happening h (hs.takeAndServe_of_dialogue State.dialogue_ack)
  | manual | manualRelease => exact hs.happening h (hs.takeAndServe_of_dialogue State.dialogue_manualRule)
  | clearMiss | clearPart => exact hs.happening h (hs.takeAndServe_of_dialogue State.dialogue_clearRule)
  | restart => exact hs.happening h (hs.takeAndServe fun _ _ hb _ => hb.warmReset)

end

/-- Settles O53: the session, its proposal and its timers change together; the completion of a request, and of a COMMIT at the
end of its scan, starts the session timer again; nothing touches the edit buffer while a COMMIT is in flight. -/
theorem stepKeepsSessionSound : Obligations.StepKeepsSessionSound := by
  intro s t hs h
  have sound : s.dialogue.Sound := s.sessionSound_iff.1 hs
  refine t.sessionSound_iff.2 ?_
  unfold step at h
  split at h
  · next i rest _ =>
    have before : ({ s with pending := rest } : State).dialogue.Sound := sound
    exact before.exec h
  · cases h
    exact sound.idle

end Sys2Proof.Machine

/-! ## O36, O37: OPEN, CLOSE and the timers of the session -/

namespace Sys2Proof.Machine

section
variable {s : State} {i : Instr} {row : RequestRow} {execute : State → Cell → Request → State} {c : Cell} {rest : List Cell}

/-- A taking whose conditions hold executes the request taken, with a place reserved for its response (R138). -/
theorem exec_of_taken (h : s.CanTake c rest) (ran : ∀ s, exec i s = happening s (fun s => s.takeRequest row execute))
    (hr : row.takes (Request.ofCell c) = true) : exec i s = .next (execute (s.taken rest) c (Request.ofCell c)) := by
  rw [ran, happening_of_running h.1, State.takeRequest_of_canTake h hr]
  rfl

/-- An execution that completes its request gives the reserved place back (R139). -/
theorem exec_of_completed (h : s.CanTake c rest) (ran : ∀ s, exec i s = happening s (fun s => s.takeRequest row execute))
    (hr : row.takes (Request.ofCell c) = true) {t : State} {reply : Reply}
    (hcomplete : execute (s.taken rest) c (Request.ofCell c) = t.reserving.complete c reply) :
    exec i s = .next (t.answered c reply) := by
  rw [exec_of_taken h ran hr, hcomplete, State.complete_reserving]

end

/-! ### OPEN (R157, R158) -/

section
variable {s : State} {r : Request}

theorem State.openPhase1Rule_of_closed (haux : r.aux = 1) (h : s.session ≠ .opened) :
    s.openPhase1Rule r = { state := s.propose, reply := .result (nextProposal s.openCounter) } := by
  cases hsession : s.session with
  | opened => contradiction
  | closed | proposed => simp only [State.openPhase1Rule, haux, hsession, if_true]

theorem State.openPhase1Rule_of_opened (haux : r.aux = 1) (h : s.session = .opened) :
    s.openPhase1Rule r = s.refuse .busy := by
  simp only [State.openPhase1Rule, haux, h, if_true]

theorem State.openPhase1Rule_of_badPhase (haux : r.aux ≠ 1) : s.openPhase1Rule r = s.refuse .badPhase := if_neg haux

/-- A proposal replaces what gate 1 drops. -/
theorem State.propose_atRule (s : State) (rest : List Cell) :
    (s.atRule rest).reserving.propose = ({ s with requests := rest } : State).propose.reserving := by
  unfold State.atRule State.pastGateOne
  dsimp only
  split <;> rfl

/-- Gate 1 leaves the open counter. -/
theorem State.openCounter_atRule (s : State) (rest : List Cell) : (s.atRule rest).openCounter = s.openCounter := by
  unfold State.atRule State.pastGateOne
  dsimp only
  split <;> rfl

/-- A phase 2 matches a standing proposal of its number (R158). -/
theorem State.matchesProposal_iff :
    s.matchesProposal r = true ↔ s.session = .proposed ∧ ∃ p : Nat, s.proposal = some p ∧ r.aux = 2 ∧ r.value = p := by
  unfold State.matchesProposal
  split <;> simp_all

/-- A phase 2 out of turn is refused past gate 1 (R158). -/
theorem State.takePhase2_of_unmatched {c : Cell} {rest : List Cell}
    (h : ∀ p : Nat, s.session = .proposed → s.proposal = some p → c.b6.toNat = 2 → c.value ≠ p) :
    (s.taken rest).takePhase2 c (Request.ofCell c) = (s.atRule rest).reserving.complete c (.plain .badPhase) := by
  have unmatched : ¬(s.taken rest).matchesProposal (Request.ofCell c) = true := by
    rw [State.matchesProposal_iff]
    rintro ⟨hsession, p, hproposal, haux, hvalue⟩
    exact h p hsession hproposal haux hvalue
  rw [State.takePhase2, if_neg unmatched, State.resolveProposal_eq, State.pastGateOne_taken]

end

theorem openPhaseOneProposes : Clause.OpenPhaseOneProposes := by
  intro s c rest h hop proposal
  have takes : c.b6.toNat ≠ 2 → RequestRow.openPhase1.takes (Request.ofCell c) = true := by
    simp +contextual [RequestRow.takes, hop]
  refine ⟨fun haux hclosed => ?_, fun haux hopen => ?_, fun hone htwo => ⟨?_, ?_⟩⟩
  · refine exec_of_served h (fun _ => rfl) (takes (by omega)) rfl ?_
    have closed : (s.atRule rest).reserving.session ≠ .opened := State.atRule_session_ne_opened hclosed rest
    rw [State.openPhase1Rule_of_closed haux closed, State.propose_atRule]
    rw [show (s.atRule rest).reserving.openCounter = s.openCounter from s.openCounter_atRule rest]
    rfl
  · exact exec_of_served_opened h hopen (fun _ => rfl) (takes (by omega)) nofun
      (State.openPhase1Rule_of_opened (s := s.taken rest) haux hopen)
  · exact exec_of_served h (t := s.atRule rest) (fun _ => rfl) (takes htwo) rfl (State.openPhase1Rule_of_badPhase hone)
  · refine exec_of_completed h (fun _ => rfl) (by simp [RequestRow.takes, hop, hone]) ?_
    exact State.takePhase2_of_unmatched fun p _ _ haux => absurd haux htwo

theorem openPhaseTwoOpensOnMatch : Clause.OpenPhaseTwoOpensOnMatch := by
  intro s c rest h hop haux
  have completed : ∀ t reply, (s.taken rest).takePhase2 c (Request.ofCell c) = (State.reserving t).complete c reply →
      exec .openPhase2 s = .next (t.answered c reply) := fun t reply hcomplete =>
    exec_of_completed h (fun _ => rfl) (by simp [RequestRow.takes, hop, haux]) hcomplete
  refine ⟨fun p hsession hproposal hvalue => completed _ _ ?_, fun hmatch => completed _ _ ?_⟩
  · have matched : (s.taken rest).matchesProposal (Request.ofCell c) = true :=
      State.matchesProposal_iff.2 ⟨hsession, p, hproposal, haux, hvalue⟩
    rw [State.takePhase2, if_pos matched, Request.ofCell_value, hvalue]
    rfl
  · exact State.takePhase2_of_unmatched fun p hsession hproposal _ => hmatch p hsession hproposal

/-- Settles O36: phase 1 is judged past gate 1, which only drops what a new proposal replaces; phase 2 opens on a match with the
proposal that stood before gate 1. -/
theorem openIsATwoPhaseHandshake : Obligations.OpenIsATwoPhaseHandshake :=
  ⟨openPhaseOneProposes, openPhaseTwoOpensOnMatch⟩

/-! ### CLOSE and the timers (R159 to R161) -/

section
variable {s : State} (c : Cell) (r : Request)

theorem State.takeClose_of_opened (h : s.session = .opened) : s.takeClose c r = s.closeSession.complete c (.plain .ok) := by
  simp only [State.takeClose, h]

theorem State.takeClose_of_proposed (h : s.session = .proposed) :
    s.takeClose c r = s.dropProposal.complete c (.plain .ok) := by
  simp only [State.takeClose, h]

theorem State.takeClose_of_closed (h : s.session = .closed) : s.takeClose c r = s.complete c (.plain .noSession) := by
  simp only [State.takeClose, h]

end

theorem closeEndsTheSession : Clause.CloseEndsTheSession := by
  intro s c rest h hop
  have completed : ∀ t reply, (s.taken rest).takeClose c (Request.ofCell c) = (State.reserving t).complete c reply →
      exec .close s = .next (t.answered c reply) := fun t reply hcomplete =>
    exec_of_completed h (fun _ => rfl) (by simp [RequestRow.takes, hop]) hcomplete
  exact ⟨fun hopen => completed _ _ (State.takeClose_of_opened (s := s.taken rest) c _ hopen),
    fun hproposed => completed _ _ (State.takeClose_of_proposed (s := s.taken rest) c _ hproposed),
    fun hclosed => completed _ _ (State.takeClose_of_closed (s := s.taken rest) c _ hclosed)⟩

theorem sessionTimersClose : Clause.SessionTimersClose := by
  intro s hrunning
  have proposal : exec .proposalTimerExpiry s = expiry s (fun s => reached s.proposalTimer) State.dropProposal := rfl
  have session : exec .sessionTimerExpiry s = expiry s (fun s => reached s.sessionTimer) State.closeSession := rfl
  rw [proposal, session]
  exact ⟨fun hdue => expiry_of_due hrunning ((reached_iff _).2 hdue) _,
    fun hnot => expiry_of_not_due ((reached_eq_false_iff _).2 hnot) _,
    fun hdue => expiry_of_due hrunning ((reached_iff _).2 hdue) _,
    fun hnot => expiry_of_not_due ((reached_eq_false_iff _).2 hnot) _⟩

/-- Settles O37: CLOSE is judged on the session that stood before gate 1, and each timer expires exactly when it stands at its
count. -/
theorem sessionEndsByCloseOrTimer : Obligations.SessionEndsByCloseOrTimer :=
  ⟨closeEndsTheSession, sessionTimersClose⟩

end Sys2Proof.Machine

/-! ## O38: the edit buffer -/

namespace Sys2Proof.Machine

/-! ### Requests that name no entry and no loop (R135, R184) -/

/-- A SPACE from 2 on names another space than CHANNEL and LOOP, or none (R184). -/
theorem spaceOfNumber_of_two_le {n : Nat} (h : 2 ≤ n) :
    spaceOfNumber n = none ∨ spaceOfNumber n = some .edit ∨ spaceOfNumber n = some .part ∨ spaceOfNumber n = some .miss
      ∨ spaceOfNumber n = some .alarm := by
  unfold spaceOfNumber
  split <;> simp_all

/-! ### EDIT_LOAD (R163) -/

section
variable {s : State} {c : Cell}

theorem State.editLoadRule_of_badSpace (h : 2 ≤ c.space) : s.editLoadRule (Request.ofCell c) = s.refuse .badSpace := by
  rcases spaceOfNumber_of_two_le h with hs | hs | hs | hs | hs <;> simp only [State.editLoadRule, Request.ofCell_space, hs]

theorem State.editLoadRule_of_badEntry (h : c.space = 0 ∧ 128 ≤ c.b1.toNat ∨ c.space = 1 ∧ 16 ≤ c.b1.toNat) :
    s.editLoadRule (Request.ofCell c) = s.refuse .badEntry := by
  rcases h with ⟨hspace, hlarge⟩ | ⟨hspace, hlarge⟩
  · simp only [State.editLoadRule, Request.ofCell_space, Request.ofCell_entry, spaceOfNumber_eq_channel.2 hspace,
      channelOfNat_of_large hlarge]
  · simp only [State.editLoadRule, Request.ofCell_space, Request.ofCell_entry, spaceOfNumber_eq_loop.2 hspace,
      loopOfNat_of_large hlarge]

theorem State.editLoadRule_of_channel (h : c.space = 0) {n : Fin Config.channelCount} (hn : c.b1.toNat = n) :
    s.editLoadRule (Request.ofCell c) =
      { state := { s with editBuffer := .channel s.channels[n].cfg }, reply := .result s.channels[n].revision } := by
  simp only [State.editLoadRule, Request.ofCell_space, Request.ofCell_entry, spaceOfNumber_eq_channel.2 h, hn,
    channelOfNat_val]

theorem State.editLoadRule_of_loop (h : c.space = 1) {k : Fin Config.loopCount} (hk : c.b1.toNat = k) :
    s.editLoadRule (Request.ofCell c) =
      { state := { s with editBuffer := .loop s.loops[k].cfg }, reply := .result s.loops[k].revision } := by
  simp only [State.editLoadRule, Request.ofCell_space, Request.ofCell_entry, spaceOfNumber_eq_loop.2 h, hk, loopOfNat_val]

/-! ### EDIT_SET (R164) -/

theorem State.editSetRule_of_badSpace (h : 2 ≤ c.space) : s.editSetRule (Request.ofCell c) = s.refuse .badSpace := by
  rcases spaceOfNumber_of_two_le h with hs | hs | hs | hs | hs <;> simp only [State.editSetRule, Request.ofCell_space, hs]

theorem State.editSetRule_of_empty (h : c.space ≤ 1) (hbuffer : s.editBuffer = .empty) :
    s.editSetRule (Request.ofCell c) = s.refuse .emptyEdit := by
  rcases Nat.le_one_iff_eq_zero_or_eq_one.1 h with hspace | hspace
  · simp only [State.editSetRule, Request.ofCell_space, spaceOfNumber_eq_channel.2 hspace, hbuffer]
  · simp only [State.editSetRule, Request.ofCell_space, spaceOfNumber_eq_loop.2 hspace, hbuffer]

section
variable {cfg : ChannelConfig} (hbuffer : s.editBuffer = .channel cfg)
include hbuffer

theorem State.editSetRule_loop_of_channel (h : c.space = 1) :
    s.editSetRule (Request.ofCell c) = s.refuse .wrongSpace := by
  simp only [State.editSetRule, Request.ofCell_space, spaceOfNumber_eq_loop.2 h, hbuffer]

theorem State.editSetRule_of_channel (h : c.space = 0) :
    s.editSetRule (Request.ofCell c) = s.editWritten c.value .channel (cfg.write c.b6.toNat c.value) := by
  simp only [State.editSetRule, Request.ofCell_space, spaceOfNumber_eq_channel.2 h, hbuffer, Request.ofCell_aux,
    Request.ofCell_value]

end

section
variable {cfg : LoopConfig} (hbuffer : s.editBuffer = .loop cfg)
include hbuffer

theorem State.editSetRule_channel_of_loop (h : c.space = 0) :
    s.editSetRule (Request.ofCell c) = s.refuse .wrongSpace := by
  simp only [State.editSetRule, Request.ofCell_space, spaceOfNumber_eq_channel.2 h, hbuffer]

theorem State.editSetRule_of_loop (h : c.space = 1) :
    s.editSetRule (Request.ofCell c) = s.editWritten c.value .loop (cfg.write c.b6.toNat c.value) := by
  simp only [State.editSetRule, Request.ofCell_space, spaceOfNumber_eq_loop.2 h, hbuffer, Request.ofCell_aux,
    Request.ofCell_value]

end
end

theorem editLoadCopiesTheRecord : Clause.EditLoadCopiesTheRecord := by
  intro s c rest h hopen hop
  have served : ∀ t reply, (s.taken rest).editLoadRule (Request.ofCell c) = { state := State.reserving t, reply := reply } →
      exec .editLoad s = .next (t.answered c reply) := fun t reply hrule =>
    exec_of_served_opened h hopen (fun _ => rfl) (by simp [RequestRow.takes, hop]) nofun hrule
  exact ⟨fun n hspace hn => served _ _ (State.editLoadRule_of_channel (s := s.taken rest) hspace hn),
    fun k hspace hk => served _ _ (State.editLoadRule_of_loop (s := s.taken rest) hspace hk),
    fun hspace => served _ _ (State.editLoadRule_of_badSpace hspace),
    fun hentry => served _ _ (State.editLoadRule_of_badEntry hentry)⟩

theorem editSetWritesTheBuffer : Clause.EditSetWritesTheBuffer := by
  intro s c rest h hopen hop refused
  have served : ∀ t reply, (s.taken rest).editSetRule (Request.ofCell c) = { state := State.reserving t, reply := reply } →
      exec .editSet s = .next (t.answered c reply) := fun t reply hrule =>
    exec_of_served_opened h hopen (fun _ => rfl) (by simp [RequestRow.takes, hop]) nofun hrule
  refine ⟨fun hspace => served _ _ (State.editSetRule_of_badSpace hspace),
    fun hspace hbuffer => served _ _ (State.editSetRule_of_empty hspace hbuffer),
    fun cfg hspace hbuffer => served _ _ (State.editSetRule_loop_of_channel hbuffer hspace),
    fun cfg hspace hbuffer => served _ _ (State.editSetRule_channel_of_loop hbuffer hspace),
    fun cfg hspace hbuffer => ?_, fun cfg hspace hbuffer => ?_⟩
  · have rule := State.editSetRule_of_channel (s := s.taken rest) hbuffer hspace
    cases hw : cfg.write c.b6.toNat c.value <;> exact served _ _ (rule.trans (congrArg _ hw))
  · have rule := State.editSetRule_of_loop (s := s.taken rest) hbuffer hspace
    cases hw : cfg.write c.b6.toNat c.value <;> exact served _ _ (rule.trans (congrArg _ hw))

/-- Settles O38: each rule answers by SPACE, by the buffer and by ENTRY, and EDIT_SET then by the write of the field. -/
theorem editBufferIsLoadedAndSet : Obligations.EditBufferIsLoadedAndSet :=
  ⟨editLoadCopiesTheRecord, editSetWritesTheBuffer⟩

end Sys2Proof.Machine

/-! ## O40, O41: the screening and the checks of a COMMIT -/

namespace Sys2Proof.Machine

/-! ### The screening (R165) -/

section
variable {s : State} {c : Cell}

theorem State.screen_of_badSpace (h : 2 ≤ c.space) : s.screen (Request.ofCell c) = .refused .badSpace := by
  rcases spaceOfNumber_of_two_le h with hs | hs | hs | hs | hs <;> simp only [State.screen, Request.ofCell_space, hs]

theorem State.screen_of_empty (h : c.space ≤ 1) (hbuffer : s.editBuffer = .empty) :
    s.screen (Request.ofCell c) = .refused .emptyEdit := by
  rcases Nat.le_one_iff_eq_zero_or_eq_one.1 h with hspace | hspace
  · simp only [State.screen, Request.ofCell_space, spaceOfNumber_eq_channel.2 hspace, hbuffer]
  · simp only [State.screen, Request.ofCell_space, spaceOfNumber_eq_loop.2 hspace, hbuffer]

section
variable {cfg : ChannelConfig} (hbuffer : s.editBuffer = .channel cfg)
include hbuffer

theorem State.screen_loop_of_channel (h : c.space = 1) : s.screen (Request.ofCell c) = .refused .wrongSpace := by
  simp only [State.screen, Request.ofCell_space, spaceOfNumber_eq_loop.2 h, hbuffer]

theorem State.screen_channel_of_badEntry (h : c.space = 0) (hlarge : 128 ≤ c.b1.toNat) :
    s.screen (Request.ofCell c) = .refused .badEntry := by
  simp only [State.screen, Request.ofCell_space, Request.ofCell_entry, spaceOfNumber_eq_channel.2 h, hbuffer,
    channelOfNat_of_large hlarge]

theorem State.screen_channel (h : c.space = 0) {n : Fin Config.channelCount} (hn : c.b1.toNat = n) :
    s.screen (Request.ofCell c) = .passed (.channel n cfg) := by
  simp only [State.screen, Request.ofCell_space, Request.ofCell_entry, spaceOfNumber_eq_channel.2 h, hbuffer, hn,
    channelOfNat_val]

end

section
variable {cfg : LoopConfig} (hbuffer : s.editBuffer = .loop cfg)
include hbuffer

theorem State.screen_channel_of_loop (h : c.space = 0) : s.screen (Request.ofCell c) = .refused .wrongSpace := by
  simp only [State.screen, Request.ofCell_space, spaceOfNumber_eq_channel.2 h, hbuffer]

theorem State.screen_loop_of_badEntry (h : c.space = 1) (hlarge : 16 ≤ c.b1.toNat) :
    s.screen (Request.ofCell c) = .refused .badEntry := by
  simp only [State.screen, Request.ofCell_space, Request.ofCell_entry, spaceOfNumber_eq_loop.2 h, hbuffer,
    loopOfNat_of_large hlarge]

theorem State.screen_loop (h : c.space = 1) {k : Fin Config.loopCount} (hk : c.b1.toNat = k) :
    s.screen (Request.ofCell c) = .passed (.loop k cfg) := by
  simp only [State.screen, Request.ofCell_space, Request.ofCell_entry, spaceOfNumber_eq_loop.2 h, hbuffer, hk,
    loopOfNat_val]

end

/-! ### The taking of a COMMIT (R165) -/

section
variable {rest : List Cell} (h : s.CanTake c rest) (hopen : s.session = .opened) (hfrozen : s.frozen = false) (hop : c.op = 6)
include h hopen hfrozen hop

/-- A COMMIT that is taken and passes the gates is judged by its screening. -/
theorem exec_commit : exec .commit s = .next
    (match s.screen (Request.ofCell c) with
      | .refused st => (s.taken rest).complete c (.plain st)
      | .passed _ => { s.taken rest with agent := .committing c, sessionTimer := none }) := by
  have passed : Gates.table.refusal (s.taken rest) = none := by
    have hopen' : (s.taken rest).session = .opened := hopen
    have hfrozen' : (s.taken rest).frozen = false := hfrozen
    simp [Gates.refusal, hopen', hfrozen']
  have past : (s.taken rest).resolveProposal = s.taken rest :=
    (State.resolveProposal_eq _).trans (State.pastGateOne_of_opened hopen)
  rw [exec_of_taken h (fun _ => rfl) (by simp [RequestRow.takes, hop]), State.takeCommit, past, passed]
  rfl

theorem exec_commit_of_refused {st : Status} (hscreen : s.screen (Request.ofCell c) = .refused st) :
    exec .commit s = .next (({ s with requests := rest } : State).answered c (.plain st)) := by
  rw [exec_commit h hopen hfrozen hop, hscreen]
  exact congrArg _ (State.complete_reserving ..)

theorem exec_commit_of_passed {target : CommitTarget} (hscreen : s.screen (Request.ofCell c) = .passed target) :
    exec .commit s = .next
      { s with requests := rest, reserved := s.reserved + 1, agent := .committing c, sessionTimer := none } := by
  rw [exec_commit h hopen hfrozen hop, hscreen]
  rfl

end
end

/-- Settles O40: past the gates the screening alone decides, and a COMMIT that passes keeps its place and stops the session
timer. -/
theorem commitIsScreened : Obligations.CommitIsScreened := by
  intro s c rest h hopen hfrozen hop refused inFlight
  have refuses : ∀ {st}, s.screen (Request.ofCell c) = .refused st → exec .commit s = refused st :=
    exec_commit_of_refused h hopen hfrozen hop
  have passes : ∀ {target}, s.screen (Request.ofCell c) = .passed target → exec .commit s = inFlight :=
    exec_commit_of_passed h hopen hfrozen hop
  exact ⟨fun hspace => refuses (State.screen_of_badSpace hspace),
    fun hspace hbuffer => refuses (State.screen_of_empty hspace hbuffer),
    fun _ hspace hbuffer => refuses (State.screen_loop_of_channel hbuffer hspace),
    fun _ hspace hbuffer => refuses (State.screen_channel_of_loop hbuffer hspace),
    fun _ hspace hbuffer => ⟨fun hlarge => refuses (State.screen_channel_of_badEntry hbuffer hspace hlarge),
      fun hlt => passes (State.screen_channel hbuffer hspace (n := ⟨_, hlt⟩) rfl)⟩,
    fun _ hspace hbuffer => ⟨fun hlarge => refuses (State.screen_loop_of_badEntry hbuffer hspace hlarge),
      fun hlt => passes (State.screen_loop hbuffer hspace (k := ⟨_, hlt⟩) rfl)⟩⟩

/-! ### The checks of a channel COMMIT (R167) -/

section
variable {s : State} {n : Fin Config.channelCount} {cfg : ChannelConfig}

/-- The buffer's key is held by no valid entry but the target (R5, R167). -/
theorem State.keyHolder_eq_none : s.keyHolder n cfg = none ↔
    ∀ m : Fin Config.channelCount, ¬(m ≠ n ∧ s.channels[m].valid = true ∧ s.channels[m].cfg.key = cfg.key) := by
  simp [State.keyHolder, State.findChannel_eq_none]

/-- Distinct keys leave one entry to hold the buffer's key. -/
theorem State.keyHolder_of_holds (hkeys : s.KeysDistinct) {m : Fin Config.channelCount}
    (hm : m ≠ n ∧ s.channels[m].valid = true ∧ s.channels[m].cfg.key = cfg.key) : s.keyHolder n cfg = some m := by
  obtain ⟨hother, hvalid, hkey⟩ := hm
  refine State.findChannel_of_unique fun j => ⟨fun hj => ?_, ?_⟩
  · simp only [Bool.and_eq_true, beq_iff_eq] at hj
    exact hkeys j m hj.1.2 hvalid (hj.2.trans hkey.symm)
  · rintro rfl
    simpa [hother] using ⟨hvalid, hkey⟩

/-- The lowest-numbered loop outside DISABLED that names the entry as SOURCE (R167, R175). -/
theorem State.controllingLoop_eq_some {k : Fin Config.loopCount} : s.controllingLoop n = some k ↔
    (s.loops[k].state ≠ .disabled ∧ s.loops[k].cfg.source = n)
      ∧ ∀ j : Fin Config.loopCount, j < k → ¬(s.loops[j].state ≠ .disabled ∧ s.loops[j].cfg.source = n) := by
  simp [State.controllingLoop, State.findLoop_eq_some]

theorem State.controllingLoop_eq_none : s.controllingLoop n = none ↔
    ∀ k : Fin Config.loopCount, ¬(s.loops[k].state ≠ .disabled ∧ s.loops[k].cfg.source = n) := by
  simp [State.controllingLoop, State.findLoop_eq_none]

theorem Channel.keyChanges_iff (e : Channel) : e.keyChanges cfg = true ↔ e.valid = true ∧ e.cfg.key ≠ cfg.key := by
  simp [Channel.keyChanges]

/-- Past the checks of the buffer's own fields, a holder of its key decides, and then a loop that uses the target (R167). -/
theorem State.channelChecks_of_installed (h : cfg.Installed) : s.channelChecks n cfg =
    ((s.keyHolder n cfg).map fun m : Fin Config.channelCount => .naming .duplicate (m : Nat)).or
      ((s.channelInUse n cfg).map fun k : Fin Config.loopCount => .naming .inUse (k : Nat)) := by
  obtain ⟨hone, hmax, hlow, hhyst⟩ := h
  rw [State.channelChecks, if_neg (not_not.2 ⟨hone, hmax⟩), if_neg (not_not.2 hlow), if_neg (not_not.2 hhyst)]
  cases s.keyHolder n cfg with
  | some m => rfl
  | none => cases s.channelInUse n cfg <;> rfl

end

theorem channelCommitChecks : Clause.ChannelCommitChecks := by
  intro s n cfg c1 c2 c3 holds keyChanges uses
  have installed : c1 → c2 → c3 → cfg.Installed := fun h1 h2 h3 => ⟨h1.1, h1.2, h2, h3⟩
  refine ⟨fun h1 => if_pos h1, fun h1 h2 => ?_, fun h1 h2 h3 => ?_, fun m h1 h2 h3 hkeys hm => ?_,
    fun k h1 h2 h3 hfree hchanges hk hlowest => ?_, fun h1 h2 h3 hfree hunused => ?_⟩
  · rw [State.channelChecks, if_neg (not_not.2 h1), if_pos h2]
  · rw [State.channelChecks, if_neg (not_not.2 h1), if_neg (not_not.2 h2), if_pos h3]
  · rw [State.channelChecks_of_installed (installed h1 h2 h3), State.keyHolder_of_holds hkeys hm]
    rfl
  · rw [State.channelChecks_of_installed (installed h1 h2 h3), State.keyHolder_eq_none.2 hfree, State.channelInUse,
      if_pos ((Channel.keyChanges_iff _).2 hchanges), State.controllingLoop_eq_some.2 ⟨hk, hlowest⟩]
    rfl
  · have unused : s.channelInUse n cfg = none := by
      rcases hunused with hkept | hnone
      · exact if_neg fun hchanges => hkept ((Channel.keyChanges_iff _).1 hchanges)
      · rw [State.channelInUse, State.controllingLoop_eq_none.2 hnone, ite_self]
    rw [State.channelChecks_of_installed (installed h1 h2 h3), State.keyHolder_eq_none.2 hfree, unused]
    rfl

/-! ### The checks of a loop COMMIT (R168) -/

section
variable {s : State} {k : Fin Config.loopCount} {cfg : LoopConfig}

theorem State.actuatorHolder_eq_none : s.actuatorHolder k cfg = none ↔
    ∀ j : Fin Config.loopCount, ¬(j ≠ k ∧ s.loops[j].state ≠ .disabled ∧ s.loops[j].cfg.actKey = cfg.actKey) := by
  simp [State.actuatorHolder, State.findLoop_eq_none]

/-- Distinct actuators leave one loop outside DISABLED to hold the buffer's actuator key (R77). -/
theorem State.actuatorHolder_of_holds (hactuators : s.ActuatorsDistinct) {j : Fin Config.loopCount}
    (hj : j ≠ k ∧ s.loops[j].state ≠ .disabled ∧ s.loops[j].cfg.actKey = cfg.actKey) : s.actuatorHolder k cfg = some j := by
  obtain ⟨hother, hlive, hkey⟩ := hj
  refine State.findLoop_of_unique fun i => ⟨fun hi => ?_, ?_⟩
  · simp only [Bool.and_eq_true, decide_eq_true_eq, beq_iff_eq] at hi
    exact hactuators.1 i j hi.1.2 hlive (hi.2.trans hkey.symm)
  · rintro rfl
    simpa [hother] using ⟨hlive, hkey⟩

end

theorem loopCommitChecks : Clause.LoopCommitChecks := by
  intro s k cfg l1 l2 l3 holds
  have last : ∀ holder, cfg.enable = true → l1 → l2 → l3 → s.actuatorHolder k cfg = holder →
      s.loopChecks k cfg = holder.map (fun j : Fin Config.loopCount => .naming .duplicate (j : Nat)) := by
    intro holder he h1 h2 h3 hholder
    rw [State.loopChecks, if_neg (not_not.2 he), if_neg (not_not.2 h1), if_neg (not_not.2 h2), if_neg (not_not.2 h3),
      hholder]
    cases holder <;> rfl
  refine ⟨fun he => if_pos (by simp [he]), fun he h1 => ?_, fun he h1 h2 => ?_, fun he h1 h2 h3 => ?_,
    fun j he h1 h2 h3 hactuators hj => ?_, fun he h1 h2 h3 hfree => ?_⟩
  · rw [State.loopChecks, if_neg (not_not.2 he), if_pos h1]
  · rw [State.loopChecks, if_neg (not_not.2 he), if_neg (not_not.2 h1), if_pos h2]
  · rw [State.loopChecks, if_neg (not_not.2 he), if_neg (not_not.2 h1), if_neg (not_not.2 h2), if_pos h3]
  · exact last _ he h1 h2 h3 (State.actuatorHolder_of_holds hactuators hj)
  · exact last _ he h1 h2 h3 (State.actuatorHolder_eq_none.2 hfree)

/-- Settles O41: each check is one branch of the judgement, and the searches among the other records find the one that holds the
key or the lowest-numbered loop. -/
theorem commitChecksInOrder : Obligations.CommitChecksInOrder :=
  ⟨channelCommitChecks, loopCommitChecks⟩

end Sys2Proof.Machine

/-! ## O42, O43: the end of the scan -/

namespace Sys2Proof.Machine

/-! ### The COMMIT in flight (R166, R169) -/

section
variable {s : State} {c : Cell} {target : CommitTarget} (hrunning : s.coldHeld = false) (hflight : s.agent = .committing c)
  (hscreen : s.screen (Request.ofCell c) = .passed target)
include hrunning hflight hscreen

/-- The end of the scan judges its COMMIT, brings the Agent to IDLE and completes the request (R169). -/
theorem exec_endOfScan : exec .endOfScan s =
    .next (({ (s.judge target).state with agent := .idle } : State).complete c (s.judge target).reply) := by
  have ran : exec .endOfScan s = happening s (fun s => match s.agent with
    | .committing c => s.endScan c
    | .idle => s) := rfl
  rw [ran, happening_of_running hrunning]
  simp only [hflight, State.endScan, hscreen]

/-- A judgement that leaves the reserved places gives that of the COMMIT back (R139). -/
theorem exec_endOfScan_of_judged {t : State} {reply : Reply} (hjudge : s.judge target = { state := t, reply := reply })
    (hplaces : t.reserved = s.reserved) : exec .endOfScan s =
      .next (({ t with agent := .idle, reserved := s.reserved - 1 } : State).answered c reply) := by
  rw [exec_endOfScan hrunning hflight hscreen, hjudge, State.complete_eq, ← hplaces]

end

section
variable {s : State} {n : Fin Config.channelCount} {cfg : ChannelConfig}

theorem State.judge_channel_of_refused {reply : Reply} (h : s.channelChecks n cfg = some reply) :
    s.judge (.channel n cfg) = { state := s, reply := reply } := by
  simp only [State.judge, h]
  rfl

theorem State.judge_channel_of_passed (h : s.channelChecks n cfg = none) :
    s.judge (.channel n cfg) =
      { state := s.installChannel n cfg, reply := .result (wrap8 s.channels[n].revision) } := by
  simp only [State.judge, h]

/-! ### Installs into a channel entry (R170, R171) -/

theorem Channel.reinstalls_iff (e : Channel) : e.reinstalls cfg = true ↔ e.valid = true ∧ e.cfg.key = cfg.key := by
  simp [Channel.reinstalls]

theorem missRemove_eq (key : Key) (list : List MissRecord) :
    missRemove key list = list.filter (fun r => decide (r.key ≠ key)) :=
  List.filter_congr fun r _ => by simp [bne, beq_eq_decide]

/-- The records of an entry leave the queue, and ALERT# follows (R70, R72). -/
theorem State.withdrawChannel_eq (s : State) (n : Fin Config.channelCount) : s.withdrawChannel n =
    s.withAlarms (s.alarms.filter (fun r => decide (r.subject ≠ .channel n))) :=
  congrArg s.withAlarms (List.filter_congr fun r _ => by simp [beq_eq_decide])

/-- The dynamic part after a re-install: a pending state returns to NORMAL and RUN is limited (R26, R50). -/
theorem ChannelDynamic.reinstalled_eq (d : ChannelDynamic) (mode : Mode) (cfg : ChannelConfig) : d.reinstalled mode cfg =
    { d with
      state := match d.state with
        | .highPend | .lowPend => .normal
        | .unseen | .normal | .high | .low | .stale => d.state
      run := match d.state with
        | .high | .low => min d.run cfg.clears
        | .unseen | .normal | .highPend | .lowPend | .stale => 0
      forward := if cfg.policy = .onChange ∧ 0 < cfg.refresh ∧ d.sent ≠ none ∧ mode = .active then .running cfg.refresh
        else .idle } := by
  have forward : d.forwardAfter mode cfg = if cfg.policy = .onChange ∧ 0 < cfg.refresh ∧ d.sent ≠ none ∧ mode = .active
      then .running cfg.refresh else .idle := by
    simp only [ChannelDynamic.forwardAfter, Option.isSome_iff_ne_none]
  unfold ChannelDynamic.reinstalled
  rw [forward]
  cases d.state <;> rfl

theorem State.installChannel_of_same_key (h : s.channels[n].valid = true ∧ s.channels[n].cfg.key = cfg.key) :
    s.installChannel n cfg =
      { s with
        missList := s.missList.filter (fun r => decide (r.key ≠ cfg.key))
        channels := s.channels.set n (s.channels[n].reinstall s.settings.mode cfg) } := by
  rw [← missRemove_eq]
  exact if_pos ((Channel.reinstalls_iff _).2 h)

theorem State.installChannel_of_new_key (h : ¬(s.channels[n].valid = true ∧ s.channels[n].cfg.key = cfg.key)) :
    s.installChannel n cfg =
      { s.withAlarms (s.alarms.filter (fun r => decide (r.subject ≠ .channel n))) with
        missList := s.missList.filter (fun r => decide (r.key ≠ cfg.key))
        channels := s.channels.set n (s.channels[n].freshInstall s.settings.mode cfg) } := by
  rw [← missRemove_eq]
  refine (if_neg fun hr => h ((Channel.reinstalls_iff _).1 hr)).trans ?_
  rw [State.withdrawChannel_eq]
  rfl

end

/-- Settles O42: the COMMIT in flight passes its screening as at its taking, so that the checks alone choose between its refusal
and one of the two installs. -/
theorem endOfScanInstallsChannel : Obligations.EndOfScanInstallsChannel := by
  intro s c n cfg hrunning hflight hopen hspace hn hbuffer e deadline ended unlisted ok
  have judged : ∀ t reply, s.judge (.channel n cfg) = { state := t, reply := reply } → t.reserved = s.reserved →
      exec .endOfScan s = ended t reply := fun t reply hjudge hplaces =>
    exec_endOfScan_of_judged hrunning hflight (State.screen_channel hbuffer hspace hn) hjudge hplaces
  refine ⟨fun reply hrefused => judged _ _ (State.judge_channel_of_refused hrefused) rfl,
    fun hpassed hvalid hkey => judged _ _ ?_ rfl, fun hpassed hnew => judged _ _ ?_ rfl⟩
  · rw [State.judge_channel_of_passed hpassed, State.installChannel_of_same_key ⟨hvalid, hkey⟩, Channel.reinstall,
      ChannelDynamic.reinstalled_eq, deadlineStart_eq]
    rfl
  · rw [State.judge_channel_of_passed hpassed, State.installChannel_of_new_key hnew, Channel.freshInstall, deadlineStart_eq]
    rfl

/-! ### Installs into a loop record (R172, R173) -/

/-- The LOOP_LIMIT records of a loop leave the queue, and ALERT# follows (R71, R72). -/
theorem State.withdrawLoop_eq (s : State) (k : Fin Config.loopCount) : s.withdrawLoop k =
    s.withAlarms (s.alarms.filter (fun r => decide (¬(r.kind = .loopLimit ∧ r.subject = .loop k)))) :=
  congrArg s.withAlarms (List.filter_congr fun r _ => by simp [beq_eq_decide])

section
variable {mode : Mode} {l : Loop} {cfg : LoopConfig}

theorem Loop.rebinds_iff : l.rebinds cfg = true ↔ l.cfg.source ≠ cfg.source ∨ l.cfg.actKey ≠ cfg.actKey := by
  simp [Loop.rebinds]

theorem Loop.freshens_iff :
    l.freshens cfg = true ↔ l.state = .disabled ∨ l.cfg.source ≠ cfg.source ∨ l.cfg.actKey ≠ cfg.actKey := by
  simp [Loop.freshens, Loop.rebinds_iff]

/-- A fresh install drives the loop from START_DUTY, or holds it at FAILSAFE_DUTY while its source has no LAST (R172). -/
theorem Loop.freshInstall_eq (last : Option Int) : l.freshInstall mode last cfg =
    { l with
      cfg := cfg, revision := wrap8 l.revision
      state := if last = none then .held else .running
      drive := if last = none then cfg.failsafeDuty else cfg.startDuty
      stepTimer := if last = none then none else startInActive mode cfg.upInterval
      stopTimer := none, satCount := 0, guardCount := 0, pending := true
      refreshTimer := orStopped cfg.refresh } := by
  rw [← startUnlessZero_eq_orStopped]
  cases last <;> rfl

/-- The DRIVE that a re-install brings a loop to, by its STATE (R173). -/
def LoopConfig.reinstalledDrive (cfg : LoopConfig) (state : LoopState) (drive : Nat) : Nat :=
  match state with
  | .running => min (max drive cfg.stopDuty) cfg.maxDuty
  | .starting => cfg.startDuty
  | .stopWait => cfg.stopDuty
  | .held => cfg.failsafeDuty
  | .stopped => 0
  | .manual | .disabled => drive

/-- A re-install keeps STATE and brings DRIVE to the value it requires (R173). -/
theorem Loop.reinstall_of_kept {state : LoopState} (hstate : l.state = state) (hwait : state ≠ .stopWait) :
    l.reinstall mode cfg =
      { l with
        cfg := cfg, revision := wrap8 l.revision, state := state, drive := cfg.reinstalledDrive state l.drive
        pending := l.pending || decide (l.drive ≠ cfg.reinstalledDrive state l.drive)
        refreshTimer := orStopped cfg.refresh } := by
  rw [← startUnlessZero_eq_orStopped]
  obtain ⟨oldCfg, revision, oldState, drive, satCount, guardCount, pending, stepTimer, stopTimer, refreshTimer⟩ := l
  cases hstate
  cases oldState with
  | stopWait => contradiction
  | manual | disabled => simp [Loop.reinstall, Loop.startRefresh, LoopConfig.reinstalledDrive]
  | held | stopped | starting | running => rfl

/-- In STOP_WAIT a re-install starts the stop timer again (R87, R173). -/
theorem Loop.reinstall_of_stopWait (hstate : l.state = .stopWait) (hstop : 0 < cfg.stopTime) :
    l.reinstall mode cfg =
      { l with
        cfg := cfg, revision := wrap8 l.revision, state := .stopWait, drive := cfg.stopDuty
        pending := l.pending || decide (l.drive ≠ cfg.stopDuty), refreshTimer := orStopped cfg.refresh
        stopTimer := startInActive mode cfg.stopTime } := by
  rw [← startUnlessZero_eq_orStopped]
  obtain ⟨oldCfg, revision, oldState, drive, satCount, guardCount, pending, stepTimer, stopTimer, refreshTimer⟩ := l
  cases hstate
  exact if_neg (Nat.ne_of_gt hstop)

/-- With STOP_TIME 0 a re-install brings a loop in STOP_WAIT to STOPPED, by way of STOP_DUTY (R87, R173). -/
theorem Loop.reinstall_of_noStopTime (hstate : l.state = .stopWait) (hstop : cfg.stopTime = 0) (hduty : 0 < cfg.stopDuty) :
    l.reinstall mode cfg =
      { l with
        cfg := cfg, revision := wrap8 l.revision, state := .stopped, drive := 0, pending := true
        refreshTimer := orStopped cfg.refresh, stopTimer := none, satCount := 0 } := by
  rw [← startUnlessZero_eq_orStopped]
  obtain ⟨oldCfg, revision, oldState, drive, satCount, guardCount, pending, stepTimer, stopTimer, refreshTimer⟩ := l
  cases hstate
  refine (if_pos hstop).trans ?_
  simp [Loop.enterStopped, Loop.setDrive, Loop.startRefresh, Nat.ne_of_gt hduty]

end

section
variable {s : State} {k : Fin Config.loopCount} {cfg : LoopConfig}

theorem State.judge_loop_of_refused {reply : Reply} (h : s.loopChecks k cfg = some reply) :
    s.judge (.loop k cfg) = { state := s, reply := reply } := by
  simp only [State.judge, h]
  rfl

theorem State.judge_loop_of_passed (h : s.loopChecks k cfg = none) :
    s.judge (.loop k cfg) = { state := s.installLoop k cfg, reply := .result (wrap8 s.loops[k].revision) } := by
  simp only [State.judge, h]

theorem State.installLoop_of_disabled (he : cfg.enable = false) :
    s.installLoop k cfg = (s.updateLoop k (Loop.installDisabled cfg)).withdrawLoop k :=
  if_pos (by simp [he])

theorem State.installLoop_of_fresh (he : cfg.enable = true)
    (h : s.loops[k].state = .disabled ∨ s.loops[k].cfg.source ≠ cfg.source ∨ s.loops[k].cfg.actKey ≠ cfg.actKey) :
    s.installLoop k cfg =
      (s.updateLoop k (Loop.freshInstall s.settings.mode s.channels[cfg.source].dyn.last cfg)).withdrawLoop k :=
  (if_neg (not_not.2 he)).trans (if_pos (Loop.freshens_iff.2 h))

theorem State.installLoop_of_kept (he : cfg.enable = true)
    (h : ¬(s.loops[k].state = .disabled ∨ s.loops[k].cfg.source ≠ cfg.source ∨ s.loops[k].cfg.actKey ≠ cfg.actKey)) :
    s.installLoop k cfg = s.updateLoop k (Loop.reinstall s.settings.mode cfg) :=
  (if_neg (not_not.2 he)).trans (if_neg fun hfresh => h (Loop.freshens_iff.1 hfresh))

end

/-- Settles O43: the checks choose between refusal and install, ENABLE and the binding choose the install, and STATE decides what a
re-install leaves. -/
theorem endOfScanInstallsLoop : Obligations.EndOfScanInstallsLoop := by
  intro s c k cfg hrunning hflight hopen hspace hk hbuffer l rebound ended install driven
  have judged : ∀ t reply, s.judge (.loop k cfg) = { state := t, reply := reply } → t.reserved = s.reserved →
      exec .endOfScan s = ended t reply := fun t reply hjudge hplaces =>
    exec_endOfScan_of_judged hrunning hflight (State.screen_loop hbuffer hspace hk) hjudge hplaces
  refine ⟨fun reply hrefused => judged _ _ (State.judge_loop_of_refused hrefused) rfl, fun hpassed =>
    ⟨fun he => judged _ _ ?_ rfl, fun he hfresh => judged _ _ ?_ rfl, fun he hbound => ?_⟩⟩
  · rw [State.judge_loop_of_passed hpassed, State.installLoop_of_disabled he, State.withdrawLoop_eq]
    simp only [State.updateLoop, Loop.installDisabled, Loop.rebinds_iff]
    rfl
  · rw [State.judge_loop_of_passed hpassed, State.installLoop_of_fresh he hfresh, State.withdrawLoop_eq]
    simp only [State.updateLoop, Loop.freshInstall_eq, State.paced_eq]
    rfl
  · have kept : ∀ l', l.state ≠ .disabled →
        l.reinstall s.settings.mode cfg = { l' with cfg := cfg, revision := wrap8 l.revision } →
        exec .endOfScan s = install false l' := fun l' hlive hl => by
      refine judged _ _ ?_ rfl
      rw [State.judge_loop_of_passed hpassed, State.installLoop_of_kept he (not_or.2 ⟨hlive, hbound⟩), State.updateLoop, hl]
      rfl
    have driveKept : ∀ state, l.state = state → state ≠ .disabled → state ≠ .stopWait →
        exec .endOfScan s = install false (driven state (cfg.reinstalledDrive state l.drive)) := fun state hstate hlive hwait =>
      kept _ (hstate ▸ hlive) (Loop.reinstall_of_kept hstate hwait)
    rw [State.paced_eq]
    exact ⟨fun hstate => driveKept .running hstate nofun nofun, fun hstate => driveKept .starting hstate nofun nofun,
      fun hstate hstop => kept _ (hstate ▸ nofun) (Loop.reinstall_of_stopWait hstate hstop),
      fun hstate hstop hduty => kept _ (hstate ▸ nofun) (Loop.reinstall_of_noStopTime hstate hstop hduty),
      fun hstate => driveKept .held hstate nofun nofun, fun hstate => driveKept .stopped hstate nofun nofun,
      fun hstate => driveKept .manual hstate nofun nofun⟩

end Sys2Proof.Machine

/-! ## O44: REMOVE -/

namespace Sys2Proof.Machine

/-! ### The rule (R175, R176) -/

section
variable {s : State} {c : Cell}

theorem State.removeRule_of_badSpace (h : 2 ≤ c.space) : s.removeRule (Request.ofCell c) = s.refuse .badSpace := by
  rcases spaceOfNumber_of_two_le h with hs | hs | hs | hs | hs <;> simp only [State.removeRule, Request.ofCell_space, hs]

theorem State.removeRule_of_badEntry (h : c.space = 0 ∧ 128 ≤ c.b1.toNat ∨ c.space = 1 ∧ 16 ≤ c.b1.toNat) :
    s.removeRule (Request.ofCell c) = s.refuse .badEntry := by
  rcases h with ⟨hspace, hlarge⟩ | ⟨hspace, hlarge⟩
  · simp only [State.removeRule, Request.ofCell_space, Request.ofCell_entry, spaceOfNumber_eq_channel.2 hspace,
      channelOfNat_of_large hlarge]
  · simp only [State.removeRule, Request.ofCell_space, Request.ofCell_entry, spaceOfNumber_eq_loop.2 hspace,
      loopOfNat_of_large hlarge]

theorem State.removeRule_of_channel (h : c.space = 0) {n : Fin Config.channelCount} (hn : c.b1.toNat = n) :
    s.removeRule (Request.ofCell c) = s.removeEntry n := by
  simp only [State.removeRule, Request.ofCell_space, Request.ofCell_entry, spaceOfNumber_eq_channel.2 h, hn,
    channelOfNat_val]

theorem State.removeRule_of_loop (h : c.space = 1) {k : Fin Config.loopCount} (hk : c.b1.toNat = k) :
    s.removeRule (Request.ofCell c) =
      { state := (s.updateLoop k Loop.remove).withdrawLoop k, reply := .result (wrap8 s.loops[k].revision) } := by
  simp only [State.removeRule, Request.ofCell_space, Request.ofCell_entry, spaceOfNumber_eq_loop.2 h, hk, loopOfNat_val]

/-- The loop that uses an entry keeps it (R175). -/
theorem State.removeEntry_of_used {n : Fin Config.channelCount} {k : Fin Config.loopCount}
    (h : s.controllingLoop n = some k) : s.removeEntry n = s.answer (.naming .inUse (k : Nat)) := by
  simp only [State.removeEntry, h]

theorem State.removeEntry_of_unused {n : Fin Config.channelCount} (h : s.controllingLoop n = none) :
    s.removeEntry n =
      { state := (s.updateChannel n Channel.remove).withdrawChannel n
        reply := .result (wrap8 s.channels[n].revision) } := by
  simp only [State.removeEntry, h]

end

/-- Settles O44: past the gates the rule answers by SPACE and ENTRY, and an entry by the search for a loop that uses it; either
row serves a request of another SPACE. -/
theorem removeTakesOutOfService : Obligations.RemoveTakesOutOfService := by
  intro s c rest h hopen hfrozen hop refused
  have channel : ∀ t reply, c.space ≠ 1 →
      (s.taken rest).removeRule (Request.ofCell c) = { state := State.reserving t, reply := reply } →
      exec .removeChannel s = .next (t.answered c reply) := fun t reply hspace hrule =>
    exec_of_served_opened h hopen (fun _ => rfl) (by simp [RequestRow.takes, hop, spaceOfNumber_eq_loop, hspace])
      (fun _ => hfrozen) hrule
  have loop : ∀ t reply, c.space ≠ 0 →
      (s.taken rest).removeRule (Request.ofCell c) = { state := State.reserving t, reply := reply } →
      exec .removeLoop s = .next (t.answered c reply) := fun t reply hspace hrule =>
    exec_of_served_opened h hopen (fun _ => rfl) (by simp [RequestRow.takes, hop, spaceOfNumber_eq_channel, hspace])
      (fun _ => hfrozen) hrule
  refine ⟨fun hspace => ⟨channel _ _ (by omega) (State.removeRule_of_badSpace hspace),
      loop _ _ (by omega) (State.removeRule_of_badSpace hspace)⟩,
    fun hspace hlarge => channel _ _ (by omega) (State.removeRule_of_badEntry (.inl ⟨hspace, hlarge⟩)),
    fun hspace hlarge => loop _ _ (by omega) (State.removeRule_of_badEntry (.inr ⟨hspace, hlarge⟩)),
    fun n hspace hn => ⟨fun k hk hlowest => channel _ _ (by omega) ?_, fun hunused => channel _ _ (by omega) ?_⟩,
    fun k hspace hk => loop _ _ (by omega) ?_⟩
  · rw [State.removeRule_of_channel hspace hn]
    exact State.removeEntry_of_used (s := s.taken rest) (State.controllingLoop_eq_some.2 ⟨hk, hlowest⟩)
  · rw [State.removeRule_of_channel hspace hn,
      State.removeEntry_of_unused (s := s.taken rest) (State.controllingLoop_eq_none.2 hunused), State.withdrawChannel_eq]
    rfl
  · rw [State.removeRule_of_loop hspace hk, State.withdrawLoop_eq]
    rfl

end Sys2Proof.Machine

/-! ## O3: the time base -/

namespace Sys2Proof.Machine

/-! ### One REFCLK period (R177, R178) -/

section
variable {s : State}

theorem step_of_no_command (h : s.pending = []) : step s = .next s.idle := by
  unfold step
  rw [h]

theorem State.idle_of_held (h : s.coldHeld = true) : s.idle = s := if_pos h

theorem State.idle_between_boundaries (h : s.coldHeld = false) (hlt : s.divider + 1 < Config.refclkPerTick) :
    s.idle = { s with divider := s.divider + 1 } := by
  rw [State.idle, if_neg (by simp [h]), if_pos hlt]

theorem State.idle_at_boundary (h : s.coldHeld = false) (hge : Config.refclkPerTick ≤ s.divider + 1) :
    s.idle = s.tickBoundary := by
  rw [State.idle, if_neg (by simp [h]), if_neg (Nat.not_lt.2 hge)]

end

/-! ### What a boundary counts -/

theorem countTicks_eq_map (timer : Option Nat) : countTicks timer = timer.map (· - 1) := by
  cases timer <;> rfl

theorem Channel.count_eq (e : Channel) : e.count =
    { e with deadline := e.deadline.map (· - 1), dyn := { e.dyn with forward := e.dyn.forward.count } } := by
  rw [Channel.count, countTicks_eq_map]

theorem Loop.count_eq (l : Loop) : l.count =
    { l with stepTimer := l.stepTimer.map (· - 1), stopTimer := l.stopTimer.map (· - 1)
             refreshTimer := l.refreshTimer.map (· - 1) } := by
  simp only [Loop.count, countTicks_eq_map]

theorem AlarmRecord.count_alert (r : AlarmRecord) : r.count.alert = r.alert := by
  unfold AlarmRecord.count; split <;> rfl

theorem AlarmRecord.count_seq (r : AlarmRecord) : r.count.seq = r.seq := by
  unfold AlarmRecord.count; split <;> rfl

/-- A boundary leaves ALERT# as the records have it: it counts their resend timers only (R72). -/
theorem State.countBoundary_eq (s : State) : s.countBoundary =
    { s with channels := mapTable Channel.count s.channels, loops := mapTable Loop.count s.loops
             alarms := s.alarms.map AlarmRecord.count, alertPin := alertOf s.alarms
             proposalTimer := s.proposalTimer.map (· - 1), sessionTimer := s.sessionTimer.map (· - 1) } := by
  rw [← countTicks_eq_map, ← countTicks_eq_map, ← alertOf_map AlarmRecord.count_alert]
  rfl

/-! ### Which timers a boundary brings to their counts

A timer with one boundary still to come reaches its count; so does one that stands at its count already, whose expiry has not
been taken yet. -/

theorem countTicks_eq_zero_iff {timer : Option Nat} : countTicks timer = some 0 ↔ ∃ k ≤ 1, timer = some k := by
  cases timer with
  | none => simp [countTicks]
  | some k => simp [countTicks, Nat.sub_eq_zero_iff_le]

theorem ForwardTimer.count_eq_zero_iff {timer : ForwardTimer} : timer.count = .running 0 ↔ ∃ k ≤ 1, timer = .running k := by
  cases timer with
  | idle | expired => simp [ForwardTimer.count]
  | running k => simp [ForwardTimer.count, Nat.sub_eq_zero_iff_le]

theorem AlarmRecord.count_resend_eq_zero_iff {r : AlarmRecord} :
    r.count.resend = .running 0 ↔ ∃ k ≤ 1, r.resend = .running k := by
  cases hr : r.resend with
  | stopped | due => simp [AlarmRecord.count, hr]
  | running k => simp [AlarmRecord.count, hr, Nat.sub_eq_zero_iff_le]

/-! ### The expiries of a boundary -/

/-- The commands that are the expiry of a timer at its count (section 10.1). -/
def State.Expires (s : State) : Instr → Prop
  | .deadlineExpiry n => s.channels[n].deadline = some 0
  | .forwardRefreshExpiry n => s.channels[n].dyn.forward = .running 0
  | .resendTimerExpiry seq => ∃ r ∈ s.alarms, r.seq = seq ∧ r.resend = .running 0
  | .step k => s.loops[k].stepTimer = some 0
  | .stopTimerExpiry k => s.loops[k].stopTimer = some 0
  | .refreshTimerExpiry k => s.loops[k].refreshTimer = some 0
  | .proposalTimerExpiry => s.proposalTimer = some 0
  | .sessionTimerExpiry => s.sessionTimer = some 0
  | _ => False

@[simp] theorem mem_dueIf {due : Bool} {i c : Instr} : c ∈ dueIf due i ↔ due = true ∧ c = i := by
  cases due <;> simp [dueIf]

section
variable {s : State} {c : Instr}

theorem State.mem_channelExpiries {n : Fin Config.channelCount} : c ∈ s.channelExpiries n ↔
    s.channels[n].deadline = some 0 ∧ c = .deadlineExpiry n
      ∨ s.channels[n].dyn.forward = .running 0 ∧ c = .forwardRefreshExpiry n := by
  simp only [State.channelExpiries, List.mem_append, mem_dueIf, reached_iff, ForwardTimer.reached_iff]

theorem State.mem_loopExpiries {k : Fin Config.loopCount} : c ∈ s.loopExpiries k ↔
    (s.loops[k].stepTimer = some 0 ∧ c = .step k ∨ s.loops[k].stopTimer = some 0 ∧ c = .stopTimerExpiry k)
      ∨ s.loops[k].refreshTimer = some 0 ∧ c = .refreshTimerExpiry k := by
  simp only [State.loopExpiries, List.mem_append, mem_dueIf, reached_iff]

/-- The expiries of a part are those of the timers at their counts, and nothing else (R177). -/
theorem State.mem_expiries : c ∈ s.expiries ↔ s.Expires c := by
  simp only [State.expiries, List.mem_append, List.mem_flatMap, List.mem_finRange, true_and, State.mem_channelExpiries,
    State.mem_loopExpiries, List.mem_map, List.mem_filter, AlarmRecord.resendReached_iff, mem_dueIf, reached_iff]
  cases c with
  | resendTimerExpiry seq => simp [State.Expires, and_comm, and_left_comm]
  | _ => simp [State.Expires]

/-- Ranking the expiries loses none and adds none (log 5). -/
theorem State.mem_pending_tickBoundary (h : s.pending = []) :
    c ∈ s.tickBoundary.pending ↔ s.countBoundary.Expires c := by
  simp only [State.tickBoundary, h, List.nil_append, mem_rankAll, State.mem_expiries]

/-- An expiry is no taking of the Agent, no slot, no end of a scan, no arrival and no reset. -/
theorem State.Expires.only_expiry (h : s.Expires c) :
    c.row = none ∧ c ≠ .northSlot ∧ c ≠ .southSlot ∧ c ≠ .endOfScan ∧ (∀ p a, c ≠ .arrival p a)
      ∧ (∀ e, c ≠ .coldReset e) ∧ ∀ e, c ≠ .warmReset e := by
  cases c with
  | deadlineExpiry | forwardRefreshExpiry | resendTimerExpiry | step | stopTimerExpiry | refreshTimerExpiry
  | proposalTimerExpiry | sessionTimerExpiry =>
    exact ⟨rfl, nofun, nofun, nofun, nofun, nofun, nofun⟩
  | _ => exact h.elim

end

/-! ### The statement -/

theorem idleStepCountsTimers : Clause.IdleStepCountsTimers := by
  intro s hempty
  rw [step_of_no_command hempty]
  refine ⟨fun hheld => ?_, fun hrunning hlt => ?_,
    fun hrunning hge => ⟨s.tickBoundary, ?_, ?_, fun n => ?_, fun k => ?_, ?_⟩⟩
  · rw [State.idle_of_held hheld]
  · rw [State.idle_between_boundaries hrunning hlt]
  · rw [State.idle_at_boundary hrunning hge]
  · rw [State.tickBoundary, State.countBoundary_eq]
  · have counted : s.tickBoundary.channels = mapTable Channel.count s.channels := rfl
    rw [counted, mapTable_fin, Channel.count_eq]
    rfl
  · have counted : s.tickBoundary.loops = mapTable Loop.count s.loops := rfl
    rw [counted, mapTable_fin, Loop.count_eq]
  · rfl

theorem tickBoundaryExpiresReachedTimers : Clause.TickBoundaryExpiresReachedTimers := by
  intro s hempty hrunning hge
  refine ⟨s.tickBoundary, by rw [step_of_no_command hempty, State.idle_at_boundary hrunning hge], ?_⟩
  have channel (n : Fin Config.channelCount) : s.countBoundary.channels[n] = s.channels[n].count := by
    rw [s.countBoundary_channels, mapTable_fin]
  have loop (k : Fin Config.loopCount) : s.countBoundary.loops[k] = s.loops[k].count := by
    rw [s.countBoundary_loops, mapTable_fin]
  simp only [State.mem_pending_tickBoundary hempty]
  refine ⟨fun n => ?_, fun n => ?_, fun q => ?_, fun k => ?_, fun k => ?_, fun k => ?_, countTicks_eq_zero_iff,
    countTicks_eq_zero_iff, fun c hc => hc.only_expiry⟩
  · rw [State.Expires, channel]
    exact countTicks_eq_zero_iff
  · rw [State.Expires, channel]
    exact ForwardTimer.count_eq_zero_iff
  · have counted : s.countBoundary.alarms = s.alarms.map AlarmRecord.count := rfl
    simp only [State.Expires, counted, List.mem_map, exists_exists_and_eq_and, AlarmRecord.count_seq,
      AlarmRecord.count_resend_eq_zero_iff]
  all_goals
    rw [State.Expires, loop]
    exact countTicks_eq_zero_iff

/-- Settles O3: an idle step is a REFCLK period, and its 250000th a boundary whose expiries are those of the timers that the
boundary brings to their counts. -/
theorem idleStepIsTheTimeBase : Obligations.IdleStepIsTheTimeBase :=
  ⟨idleStepCountsTimers, tickBoundaryExpiresReachedTimers⟩

end Sys2Proof.Machine

/-! ## O6: the RESTART# pin -/

namespace Sys2Proof.Machine

section
variable {s : State} {ns : Nat}

theorem exec_restartFalls_of_low (h : s.restartLow = true) : exec (.warmReset (.falls ns)) s = .next s := by
  rw [exec, execWarmReset, if_pos h]

theorem exec_restartFalls_of_held (h : s.restartLow = false) (hheld : s.coldHeld = true) :
    exec (.warmReset (.falls ns)) s = .next { s with restartLow := true } := by
  rw [exec, execWarmReset, if_neg (by simp [h]), if_pos hheld]

theorem exec_restartFalls_of_running (h : s.restartLow = false) (hrunning : s.coldHeld = false) :
    exec (.warmReset (.falls ns)) s = .next (s.restartFalls ns) := by
  rw [exec, execWarmReset, if_neg (by simp [h]), if_neg (by simp [hrunning])]

theorem State.restartFalls_of_long (h : Config.restartNs ≤ ns) :
    s.restartFalls ns = ({ s with restartLow := true } : State).warmReset := if_pos h

/-- After a shorter assertion the free value decides (log 6). The count of free values lies outside the part, so that drawing
one before the warm reset is drawing it after. -/
theorem State.restartFalls_of_short (h : ns < Config.restartNs) :
    s.restartFalls ns =
      if Config.shortRestartActs s.freeDraws then
        ({ s with restartLow := true, freeDraws := s.freeDraws + 1 } : State).warmReset
      else { s with restartLow := true, freeDraws := s.freeDraws + 1 } :=
  if_neg (Nat.not_le.2 h)

end

/-- Settles O6: the level of the pin, the holding of cold reset and the length of the assertion, in the order the rule checks
them. -/
theorem restartPinMakesWarmReset : Obligations.RestartPinMakesWarmReset := by
  intro s ns
  refine ⟨fun hhigh hrunning hlong => ?_, fun hhigh hrunning hshort => ?_, exec_restartFalls_of_low,
    exec_restartFalls_of_held, rfl⟩
  · exact ⟨_, (exec_restartFalls_of_running hhigh hrunning).trans (congrArg _ (State.restartFalls_of_long hlong)),
      State.isWarmResetOf_warmReset _⟩
  · refine ⟨_, exec_restartFalls_of_running hhigh hrunning, ?_⟩
    rw [State.restartFalls_of_short hshort]
    split
    · exact .inr (State.isWarmResetOf_warmReset _)
    · exact .inl rfl

end Sys2Proof.Machine

/-! ## O5: cold reset -/

namespace Sys2Proof.Machine

/-- Every row of the table but the two resets is a happening of the part, so that a part held in cold reset ignores it
(R178). -/
theorem exec_eq_happening {c : Instr} (hcold : ∀ e, c ≠ .coldReset e) (hwarm : ∀ e, c ≠ .warmReset e) (s : State) :
    ∃ effect, exec c s = happening s effect := by
  unfold exec
  cases c with
  | coldReset e => exact absurd rfl (hcold e)
  | warmReset e => exact absurd rfl (hwarm e)
  | _ => exact ⟨_, rfl⟩

theorem exec_of_held {c : Instr} (hcold : ∀ e, c ≠ .coldReset e) (hwarm : ∀ e, c ≠ .warmReset e) {s : State}
    (hheld : s.coldHeld = true) : exec c s = .next s := by
  obtain ⟨effect, hexec⟩ := exec_eq_happening hcold hwarm s
  rw [hexec, happening_of_held hheld]

/-- Settles O5: an assertion always brings the cold-reset condition, a release only where its source held the part. -/
theorem coldResetHoldsAndRestoresThePart : Obligations.ColdResetHoldsAndRestoresThePart := by
  intro s cold
  refine ⟨rfl, rfl, fun hlow => ?_, fun hhigh => ?_, fun hup => ?_, fun hgood => ?_,
    fun hheld c hcold hwarm => exec_of_held hcold hwarm hheld⟩
  · rw [exec, execColdReset, if_pos hlow]
    rfl
  · rw [exec, execColdReset, if_neg (by simp [hhigh])]
  · rw [exec, execColdReset, if_pos hup]
    rfl
  · rw [exec, execColdReset, if_neg (by simp [hgood])]

end Sys2Proof.Machine

/-! ## O2: every command has a next state -/

namespace Sys2Proof.Machine

/-! ### What lies outside the part -/

/-- The levels of the input pins, the divider, the count of free values and the commands that wait: what no happening but a
reset touches (log 11, 12). -/
structure Surroundings where
  resetLow   : Bool
  poweringUp : Bool
  restartLow : Bool
  divider    : Nat
  freeDraws  : Nat
  pending    : List Instr

/-- The surroundings of a state. -/
def State.surroundings (s : State) : Surroundings :=
  { resetLow := s.resetLow, poweringUp := s.poweringUp, restartLow := s.restartLow, divider := s.divider,
    freeDraws := s.freeDraws, pending := s.pending }

theorem State.surroundings_eq_iff {s t : State} : t.surroundings = s.surroundings ↔
    t.resetLow = s.resetLow ∧ t.poweringUp = s.poweringUp ∧ t.restartLow = s.restartLow ∧ t.divider = s.divider
      ∧ t.freeDraws = s.freeDraws ∧ t.pending = s.pending := by
  simp [State.surroundings]

/-! ### The shared operations -/

section
variable (s : State)

theorem State.surroundings_raise (a : Alarm) : (s.raise a).surroundings = s.surroundings := by
  simp [State.surroundings]

theorem State.surroundings_handNorth (c : Cell) : (s.handNorth c).surroundings = s.surroundings := by
  simp [State.surroundings]

theorem State.surroundings_handSouth (c : Cell) : (s.handSouth c).surroundings = s.surroundings := by
  simp [State.surroundings]

theorem State.surroundings_withReceiver (p : Port) (r : Receiver) :
    (s.withReceiver p r).surroundings = s.surroundings := by
  cases p <;> rfl

theorem State.surroundings_resolveProposal : s.resolveProposal.surroundings = s.surroundings := by
  simp [State.surroundings]

theorem State.surroundings_complete (c : Cell) (reply : Reply) :
    (s.complete c reply).surroundings = s.surroundings := by
  simp [State.surroundings, State.complete]

theorem State.surroundings_acknowledge (n : Fin Config.channelCount) :
    (s.acknowledge n).surroundings = s.surroundings := by
  unfold State.acknowledge
  dsimp only
  split
  · exact State.surroundings_raise ..
  · rfl

theorem State.surroundings_removeTripRecord (n : Fin Config.channelCount) :
    (s.removeTripRecord n).surroundings = s.surroundings := by
  unfold State.removeTripRecord
  split <;> rfl

/-! ### Arrivals -/

theorem State.surroundings_enterSync (p : Port) : (s.enterSync p).surroundings = s.surroundings := by
  unfold State.enterSync
  cases p <;> exact State.surroundings_raise ..

theorem State.surroundings_enterHunt (p : Port) : (s.enterHunt p).surroundings = s.surroundings := by
  unfold State.enterHunt
  cases p <;> exact State.surroundings_raise ..

theorem State.surroundings_classify (c : Cell) : (s.classify c).surroundings = s.surroundings := by
  rcases s.classify_cases c with ⟨-, h⟩ | ⟨n, -, -, -, h⟩ | ⟨-, -, h⟩ <;> rw [h]
  · exact s.surroundings_handNorth c
  · obtain ⟨d, d', q, pin, seq, fifo, lost, -, -, hhit⟩ := s.takeHit_spec n c
    rw [hhit]
    rfl
  · obtain ⟨fifo, lost, hmiss⟩ := s.takeMiss_spec c
    rw [hmiss]
    rfl

theorem State.surroundings_dispatch (p : Port) (c : Cell) : (s.dispatch p c).surroundings = s.surroundings := by
  rcases s.dispatch_cases p c with
    h | ⟨-, -, h⟩ | ⟨d, -, -, h⟩ | ⟨d, -, h⟩ | ⟨-, -, h⟩ | ⟨-, h⟩ | ⟨k, -, -, h⟩ <;> rw [h]
  · exact s.surroundings_classify c
  · exact s.surroundings_handNorth d
  · exact s.surroundings_handSouth d
  all_goals rfl

theorem State.surroundings_takeArrival (p : Port) (a : Arrival) : (s.takeArrival p a).surroundings = s.surroundings := by
  rcases s.takeArrival_cases p a with ⟨r, h, -, -⟩ | ⟨r, h, -, -⟩ | ⟨r, h, -, -⟩ | ⟨c, -, -, -, h⟩ <;> rw [h]
  · exact s.surroundings_withReceiver p r
  · rw [State.surroundings_enterSync, State.surroundings_withReceiver]
  · rw [State.surroundings_enterHunt, State.surroundings_withReceiver]
  · rw [State.surroundings_dispatch, State.goodTaken, State.surroundings_withReceiver]

/-! ### Slots and expiries -/

theorem State.surroundings_sendForwarded : s.sendForwarded.surroundings = s.surroundings := by
  unfold State.sendForwarded
  split <;> rfl

theorem State.surroundings_fillNorthSlot : s.fillNorthSlot.surroundings = s.surroundings := by
  have inserted : s.sendInserted.surroundings = s.surroundings := by
    unfold State.sendInserted
    split
    · rfl
    · split
      · rfl
      · exact s.surroundings_sendForwarded
  unfold State.fillNorthSlot
  split
  · rfl
  · split
    · exact s.surroundings_sendForwarded
    · exact inserted

theorem State.surroundings_fillSouthSlot : s.fillSouthSlot.surroundings = s.surroundings := by
  unfold State.fillSouthSlot
  split
  · rfl
  · split
    · unfold State.contended
      split <;> rfl
    all_goals rfl

theorem State.surroundings_deadlineExpires (n : Fin Config.channelCount) :
    (s.deadlineExpires n).surroundings = s.surroundings := by
  unfold State.deadlineExpires
  dsimp only
  split
  · rfl
  · exact State.surroundings_raise ..

theorem State.surroundings_resendExpires (seq : Nat) : (s.resendExpires seq).surroundings = s.surroundings := by
  unfold State.resendExpires
  split
  · split <;> rfl
  all_goals rfl

theorem State.surroundings_takeStep (k : Fin Config.loopCount) : (s.takeStep k).surroundings = s.surroundings := by
  unfold State.takeStep
  dsimp only
  split
  · rfl
  · rfl
  · unfold State.stepLoop
    dsimp only
    split
    · exact State.surroundings_raise ..
    · rfl

/-! ### The rules of the Agent -/

variable (c : Cell) (r : Request)

theorem State.surroundings_ack : (s.ack r).state.surroundings = s.surroundings := by
  unfold State.ack
  split
  · unfold State.ackSeq
    split
    · rfl
    · dsimp only
      split
      · exact State.surroundings_acknowledge ..
      · rfl
  · split
    · unfold State.ackEntry
      split
      case h_1 | h_2 => rw [State.surroundings_acknowledge, State.surroundings_removeTripRecord]
      all_goals rfl
    · rfl
  all_goals rfl

theorem State.surroundings_manualRule : (s.manualRule r).state.surroundings = s.surroundings := by
  unfold State.manualRule
  split
  · split
    · split
      · unfold State.manualLoop State.manualDone
        split
        · rfl
        all_goals split <;> rfl
      · rfl
    · rfl
  all_goals rfl

theorem State.surroundings_clearRule : (s.clearRule r).state.surroundings = s.surroundings := by
  unfold State.clearRule
  split <;> rfl

theorem State.surroundings_removeRule : (s.removeRule r).state.surroundings = s.surroundings := by
  unfold State.removeRule
  split
  · split
    · unfold State.removeEntry
      split <;> rfl
    · rfl
  · split <;> rfl
  all_goals rfl

theorem State.surroundings_setPartRule : (s.setPartRule r).state.surroundings = s.surroundings := by
  unfold State.setPartRule
  split
  · split
    case h_4 p _ =>
      obtain ⟨f, g, -, -, h⟩ := s.withSettings_spec p
      rw [h]
      rfl
    all_goals rfl
  all_goals rfl

theorem State.surroundings_openPhase1Rule : (s.openPhase1Rule r).state.surroundings = s.surroundings := by
  unfold State.openPhase1Rule
  split
  · split <;> rfl
  · rfl

theorem State.surroundings_editLoadRule : (s.editLoadRule r).state.surroundings = s.surroundings := by
  unfold State.editLoadRule
  split
  · split <;> rfl
  · split <;> rfl
  all_goals rfl

theorem State.surroundings_editWritten {α : Type} (v : Int) (load : α → EditBuffer) (w : FieldWrite α) :
    (s.editWritten v load w).state.surroundings = s.surroundings := by
  rcases s.editWritten_cases v load w with h | ⟨cfg, -, h⟩ <;> rw [h]
  rfl

theorem State.surroundings_editSetRule : (s.editSetRule r).state.surroundings = s.surroundings := by
  unfold State.editSetRule
  split
  · exact s.surroundings_editWritten ..
  · exact s.surroundings_editWritten ..
  all_goals rfl

theorem State.surroundings_takePhase2 : (s.takePhase2 c r).surroundings = s.surroundings := by
  unfold State.takePhase2
  split
  · exact State.surroundings_complete ..
  · rw [State.surroundings_complete, State.surroundings_resolveProposal]

theorem State.surroundings_takeClose : (s.takeClose c r).surroundings = s.surroundings := by
  unfold State.takeClose
  split <;> exact State.surroundings_complete ..

theorem State.surroundings_takeCommit : (s.takeCommit c r).surroundings = s.surroundings := by
  unfold State.takeCommit
  dsimp only
  split
  · rw [State.surroundings_complete, State.surroundings_resolveProposal]
  · split
    · rw [State.surroundings_complete, State.surroundings_resolveProposal]
    · exact s.surroundings_resolveProposal

theorem State.surroundings_judge (target : CommitTarget) : (s.judge target).state.surroundings = s.surroundings := by
  unfold State.judge
  cases target with
  | channel n cfg =>
    obtain ⟨e, q, pin, -, -, h⟩ := s.installChannel_spec n cfg
    dsimp only
    split
    · rfl
    · rw [h]
      rfl
  | loop k cfg =>
    obtain ⟨l, q, pin, -, -, h⟩ := s.installLoop_spec k cfg
    dsimp only
    split
    · rfl
    · rw [h]
      rfl

theorem State.surroundings_endScan : (s.endScan c).surroundings = s.surroundings := by
  unfold State.endScan
  split
  · exact State.surroundings_complete ..
  · next target _ => exact (State.surroundings_complete ..).trans (s.surroundings_judge target)

/-- The warm reset of a RESTART, like that of the pin, is of the part alone (R152, R154). -/
theorem State.surroundings_warmReset : s.warmReset.surroundings = s.surroundings := by
  simp [State.surroundings, State.warmReset, State.sessionReset, State.forwardingReset, State.alarmReset]

/-! ### Completion -/

/-- The outcome is a next state, and its surroundings are those of `s`. -/
def State.Completes (out : Host.Outcome State Fault Refusal) : Prop :=
  ∃ t, out = .next t ∧ t.surroundings = s.surroundings

end

section
variable {s : State}

theorem State.completes_happening {effect : State → State} (h : (effect s).surroundings = s.surroundings) :
    s.Completes (happening s effect) := by
  refine ⟨_, rfl, ?_⟩
  split
  · rfl
  · exact h

theorem State.completes_expiry {due : State → Bool} {effect : State → State}
    (h : (effect s).surroundings = s.surroundings) : s.Completes (expiry s due effect) := by
  refine State.completes_happening ?_
  split
  · exact h
  · rfl

/-- A taking that does not happen leaves the part; one that does leaves the surroundings as its execution does (R138). -/
theorem State.completes_takeRequest {row : RequestRow} {execute : State → Cell → Request → State}
    (h : ∀ b c r, (execute b c r).surroundings = b.surroundings) :
    s.Completes (happening s (fun s => s.takeRequest row execute)) := by
  refine State.completes_happening ?_
  rcases s.takeRequest_cases row execute with ht | ⟨c, rest, -, -, -, -, ht⟩ <;> rw [ht]
  exact h ..

/-- A request that is served leaves the surroundings as its own rule does (R139, R141). -/
theorem State.completes_takeAndServe {row : RequestRow} {g : Gates} {rule : State → Request → Answer}
    (h : ∀ b r, (rule b r).state.surroundings = b.surroundings) :
    s.Completes (happening s (fun s => s.takeAndServe row g rule)) := by
  refine State.completes_takeRequest fun b c r => ?_
  unfold State.serve
  dsimp only
  split
  · rw [State.surroundings_complete, State.surroundings_resolveProposal]
  · rw [State.surroundings_complete, h, State.surroundings_resolveProposal]

/-- Each row but the two resets is a happening, an expiry or a taking of the Agent, and none of these acts outside the part
(section 0.7; log 1, 11, 12). -/
theorem exec_completes {c : Instr} (hcold : ∀ e, c ≠ .coldReset e) (hwarm : ∀ e, c ≠ .warmReset e) (s : State) :
    s.Completes (exec c s) := by
  unfold exec
  cases c with
  | coldReset e => exact absurd rfl (hcold e)
  | warmReset e => exact absurd rfl (hwarm e)
  | arrival p a => exact State.completes_happening (s.surroundings_takeArrival p a)
  | northSlot => exact State.completes_happening s.surroundings_fillNorthSlot
  | southSlot => exact State.completes_happening s.surroundings_fillSouthSlot
  | deadlineExpiry n => exact State.completes_expiry (s.surroundings_deadlineExpires n)
  | resendTimerExpiry seq => exact State.completes_happening (s.surroundings_resendExpires seq)
  | step k => exact State.completes_expiry (s.surroundings_takeStep k)
  | forwardRefreshExpiry | stopTimerExpiry | refreshTimerExpiry | proposalTimerExpiry | sessionTimerExpiry =>
    exact State.completes_expiry rfl
  | read | unknownRequest | freeze => exact State.completes_takeAndServe fun _ _ => rfl
  | openPhase1 => exact State.completes_takeAndServe State.surroundings_openPhase1Rule
  | openPhase2 => exact State.completes_takeRequest State.surroundings_takePhase2
  | close => exact State.completes_takeRequest State.surroundings_takeClose
  | editLoad => exact State.completes_takeAndServe State.surroundings_editLoadRule
  | editSet => exact State.completes_takeAndServe State.surroundings_editSetRule
  | commit => exact State.completes_takeRequest State.surroundings_takeCommit
  | endOfScan =>
    refine State.completes_happening ?_
    split
    · exact s.surroundings_endScan _
    · rfl
  | removeChannel | removeLoop => exact State.completes_takeAndServe State.surroundings_removeRule
  | setPart => exact State.completes_takeAndServe State.surroundings_setPartRule
  | ackAlarm | ackChannel => exact State.completes_takeAndServe State.surroundings_ack
  | manual | manualRelease => exact State.completes_takeAndServe State.surroundings_manualRule
  | clearMiss | clearPart => exact State.completes_takeAndServe State.surroundings_clearRule
  | restart => exact State.completes_takeAndServe fun b _ => b.surroundings_warmReset

/-! ### The resets -/

/-- Every edge of RESET# and of power-up has a next state, with the commands that wait. -/
theorem execColdReset_pending (edge : ColdEdge) (s : State) :
    ∃ t, execColdReset edge s = .next t ∧ t.pending = s.pending := by
  cases edge with
  | resetFalls | powerUpBegins => exact ⟨_, rfl, rfl⟩
  | resetRises | powerUpEnds =>
    refine ⟨_, rfl, ?_⟩
    split <;> rfl

theorem State.restartFalls_pending (s : State) (heldLowNs : Nat) : (s.restartFalls heldLowNs).pending = s.pending := by
  unfold State.restartFalls
  dsimp only
  split
  · rfl
  · split <;> rfl

/-- Every edge of RESTART# has a next state, with the commands that wait. -/
theorem execWarmReset_pending (edge : RestartEdge) (s : State) :
    ∃ t, execWarmReset edge s = .next t ∧ t.pending = s.pending := by
  cases edge with
  | rises => exact ⟨_, rfl, rfl⟩
  | falls heldLowNs =>
    refine ⟨_, rfl, ?_⟩
    split
    · rfl
    · split
      · rfl
      · exact s.restartFalls_pending heldLowNs

end

/-- Settles O2: a reset has a next state with the queue of before; every other command completes and leaves all that lies outside
the part. -/
theorem everyCommandCompletes : Obligations.EveryCommandCompletes := by
  intro c s
  by_cases hcold : ∃ edge, c = .coldReset edge
  · obtain ⟨edge, rfl⟩ := hcold
    obtain ⟨t, ht, hpending⟩ := execColdReset_pending edge s
    exact ⟨t, ht, hpending, fun hcold => absurd rfl (hcold edge)⟩
  by_cases hwarm : ∃ edge, c = .warmReset edge
  · obtain ⟨edge, rfl⟩ := hwarm
    obtain ⟨t, ht, hpending⟩ := execWarmReset_pending edge s
    exact ⟨t, ht, hpending, fun _ hwarm => absurd rfl (hwarm edge)⟩
  obtain ⟨t, ht, hsame⟩ := exec_completes (not_exists.1 hcold) (not_exists.1 hwarm) s
  obtain ⟨hreset, hpower, hrestart, hdivider, hdraws, hpending⟩ := State.surroundings_eq_iff.1 hsame
  exact ⟨t, ht, hpending, fun _ _ => ⟨hreset, hpower, hrestart, hdivider, hdraws⟩⟩

end Sys2Proof.Machine

/-! ## O1: the command in front of the queue -/

namespace Sys2Proof.Machine

/-- Settles O1: a step on a queue that is not empty is its first case. -/
theorem stepRunsFrontCommand : Obligations.StepRunsFrontCommand := by
  intro s c rest hqueue
  unfold step
  rw [hqueue]

end Sys2Proof.Machine

/-! ## O4 and O50: the part right after cold reset -/

namespace Sys2Proof.Machine

/-! ### Its records -/

theorem State.reset_channel (n : Fin Config.channelCount) : State.reset.channels[n] = .coldReset := by
  simp [State.reset]

theorem State.reset_loop (k : Fin Config.loopCount) : State.reset.loops[k] = .coldReset := by
  simp [State.reset]

theorem State.reset_receiver (p : Port) : State.reset.receiver p = .coldReset := by
  cases p <;> rfl

/-- Settles O4: every entry, loop and receiver is its record of cold reset, and the other fields are written out in the model. -/
theorem resetLeavesColdResetValues : Obligations.ResetLeavesColdResetValues := by
  refine ⟨State.reset_channel, State.reset_loop, rfl, State.reset_receiver, ?_⟩
  simp [State.reset]

/-! ### Its soundness -/

/-- Cold reset brings the reset state to itself. -/
theorem State.coldCondition_reset : State.reset.coldCondition = State.reset := rfl

theorem State.reset_not_valid (n : Fin Config.channelCount) : State.reset.channels[n].valid ≠ true := by
  rw [State.reset_channel]
  nofun

theorem State.reset_loop_disabled (k : Fin Config.loopCount) : State.reset.loops[k].state = .disabled := by
  rw [State.reset_loop]
  rfl

theorem State.reset_sessionSound : State.reset.SessionSound :=
  (State.sessionSound_iff _).2 (State.reset.answering_coldCondition.sound nofun)

/-- The Miss List is empty. -/
theorem State.reset_missSound : State.reset.MissSound :=
  ⟨Nat.zero_le _, .nil, nofun, nofun⟩

theorem State.reset_keysDistinct : State.reset.KeysDistinct := fun m _ hm => absurd hm (State.reset_not_valid m)

theorem State.reset_channelsSound : State.reset.ChannelsSound := fun n => by
  rw [State.reset_channel]
  exact Channel.sound_invalid _ _ (by decide)

theorem State.reset_tripsNamed : State.reset.TripsNamed := fun n seq hseq => by
  rw [State.reset_channel] at hseq
  cases hseq

theorem State.reset_loopsSound : State.reset.LoopsSound := fun k => by
  rw [State.reset_loop]
  exact Loop.sound_coldReset

theorem State.reset_actuatorsDistinct : State.reset.ActuatorsDistinct :=
  ⟨fun j _ hj => absurd (State.reset_loop_disabled j) hj, fun k hk => absurd (State.reset_loop_disabled k) hk⟩

theorem State.reset_rangesSound : State.reset.RangesSound := by
  refine ⟨Settings.inRange_default, trivial, fun n => ?_, fun k => ?_, nofun, nofun⟩
  · rw [State.reset_channel]
    exact ⟨ChannelConfig.inRange_default, ChannelDynamic.inRange_cleared⟩
  · rw [State.reset_loop]
    exact Loop.inRange_coldReset

/-- Settles O50: what a cold reset brings to soundness of the queue, the lines, the session and the counters it brings there from
the reset state too, which is its own cold-reset condition; the tables hold no valid entry and no loop out of DISABLED. -/
theorem resetIsSound : Obligations.ResetIsSound := by
  have cold : State.reset.GaugesSound := State.gaugesSound_of_cold State.coldCondition_reset.symm
  obtain ⟨hcounters, hcold⟩ := cold
  exact ⟨State.reset.queueSound_coldCondition, (State.linesSound_iff _).2 State.reset.emptied_coldCondition.sound,
    State.reset_sessionSound, State.reset_missSound, State.reset_keysDistinct, State.reset_channelsSound,
    State.reset_tripsNamed, State.reset_loopsSound, State.reset_actuatorsDistinct, hcounters, hcold, State.reset_rangesSound⟩

end Sys2Proof.Machine
